-- ==== Sys2Proof/Word.lean ====
section
/-! DEFINITION. The word types of the block (spec/00_scope.md R7, spec/30_encoding.md R70). -/

namespace Sys2Proof

/-- A byte: the data width of every transaction (R7 `DATA_WIDTH`, R56). -/
abbrev Byte := BitVec 8

/-- A 32-bit transaction word (R70). -/
abbrev Word := BitVec 32

/-- A 16-bit I/O port address (R7 `PORT_WIDTH`, R50). -/
abbrev Port := BitVec 16

/-- A 21-bit framebuffer byte offset as a transaction word carries it (R70, R72). -/
abbrev FbOffset := BitVec 21

end Sys2Proof
end

