-- ==== Sys2Proof/Config.lean ====
section
/-! DEFINITION. What is fixed for the block (spec/00_scope.md R7, R9), the parameters the spec leaves open (R8),
and the free values (R11 `draw8`, spec/41_uart_transmitter.md R124, R125). -/

namespace Sys2Proof.Config

/-! ### Fixed values (R7, R9) -/

/-- `UART_BASE` (R7). -/
def uartBase : Port := 0x3F8

/-- A UART register's port, `UART_BASE + offset` in 16 bits (R9). -/
def uartPort (offset : Port) : Port := uartBase + offset

/-- `CRTC_CMD_PORT` (R7). -/
def crtcCmdPort : Port := 0x3D4

/-- `CRTC_DATA_PORT` (R7). -/
def crtcDataPort : Port := 0x3D5

/-- `CRTC_CURSOR_HI` (R7). -/
def crtcCursorHi : Byte := 14

/-- `CRTC_CURSOR_LO` (R7). -/
def crtcCursorLo : Byte := 15

/-- `BAUD_CLOCK`: the baud at divisor 1 (R7, R31). -/
def baudClock : Nat := 115200

/-! ### Open parameters (R8) -/

/-- The parameters of R8. A machine carries them as plain data and no step changes them. -/
structure Params where
  /-- `TX_FIFO_DEPTH`: bytes the transmit queue holds while the FIFO is enabled. -/
  txFifoDepth : Nat
  /-- `FB_SIZE`: bytes of framebuffer. -/
  fbSize : Nat
  /-- `FB_BASE`: the host address of framebuffer byte 0. No rule reads it. -/
  fbBase : Nat
  /-- `TX_FAIR`: whether the transmitter is weakly fair. -/
  txFair : Bool
deriving DecidableEq, Repr

/-- The constraints R8 puts on the parameters; the launch premise `FbParams` of R228. -/
abbrev Params.ok (p : Params) : Prop :=
  1 ≤ p.txFifoDepth ∧ p.fbSize % 2 = 0 ∧ 2 ≤ p.fbSize ∧ p.fbSize ≤ 2 ^ 21

/-- Free: `TX_FIFO_DEPTH - 1` at reset (R8 OPEN, log 8). -/
opaque txFifoDepthLessOne : Nat

/-- Free: selects the number of framebuffer cells at reset (R8 OPEN, log 8). -/
opaque fbCellChoice : Nat

/-- Free: `FB_BASE` at reset (R8 OPEN, log 8). -/
opaque fbBase : Nat

/-- Free: `TX_FAIR` at reset (R8 OPEN, log 8). -/
opaque txFair : Bool

/-- DESIGN CHOICE (log 8): the parameters at reset. Built from free values so that every admitted value, and no other,
is possible. -/
def resetParams : Params where
  txFifoDepth := txFifoDepthLessOne + 1
  fbSize := 2 * (fbCellChoice % 2 ^ 20) + 2
  fbBase := fbBase
  txFair := txFair

/-! ### Free values -/

/-- Free: the `n`-th `draw8()` of a run (R11, log 7). -/
opaque draw8 : Nat → Byte

/-- Free: under `TX_FAIR = true`, how many turns the host takes before the transmitter's next turn (R124, R125, log 6). -/
opaque hostTurns : Nat → Nat

/-- Free: under `TX_FAIR = false`, whether the `n`-th turn is the transmitter's (R124, R125, log 6). -/
opaque freeTurn : Nat → Bool

end Sys2Proof.Config
end

