-- ==== Sys2Proof/Syntax.lean ====
section
/-! DEFINITION. The transactions of the block: one constructor per row of the opcode map
(spec/30_encoding.md R77, in the map's order). -/

namespace Sys2Proof

/-- A decoded transaction. Rows 1 to 22 are exact; rows 23 to 25 are the catch-alls. -/
inductive Instr where
  /-- Row 1: `outb 0x3F8, DATA` (R90). -/
  | uartDataW (data : Byte)
  /-- Row 2: `inb 0x3F8` (R93). -/
  | uartDataR
  /-- Row 3: `outb 0x3F9, DATA` (R94). -/
  | uartOff1W (data : Byte)
  /-- Row 4: `inb 0x3F9` (R94). -/
  | uartOff1R
  /-- Row 5: `outb 0x3FA, DATA` (R95). -/
  | uartFcrW (data : Byte)
  /-- Row 6: `inb 0x3FA` (R96). -/
  | uartOff2R
  /-- Row 7: `outb 0x3FB, DATA` (R97). -/
  | uartLcrW (data : Byte)
  /-- Row 8: `inb 0x3FB` (R98). -/
  | uartLcrR
  /-- Row 9: `outb 0x3FC, DATA` (R99). -/
  | uartMcrW (data : Byte)
  /-- Row 10: `inb 0x3FC` (R100). -/
  | uartMcrR
  /-- Row 11: `inb 0x3FD` (R101). -/
  | uartLsrR
  /-- Row 12: `outb 0x3FD, DATA` (R102). -/
  | uartLsrW (data : Byte)
  /-- Row 13: `outb 0x3FE, DATA` (R103). -/
  | uartOff6W (data : Byte)
  /-- Row 14: `inb 0x3FE` (R103). -/
  | uartOff6R
  /-- Row 15: `outb 0x3FF, DATA` (R103). -/
  | uartOff7W (data : Byte)
  /-- Row 16: `inb 0x3FF` (R103). -/
  | uartOff7R
  /-- Row 17: `outb 0x3D4, DATA` (R155). -/
  | crtcIndexW (data : Byte)
  /-- Row 18: `inb 0x3D4` (R156). -/
  | crtcIndexR
  /-- Row 19: `outb 0x3D5, DATA` (R157). -/
  | crtcDataW (data : Byte)
  /-- Row 20: `inb 0x3D5` (R158). -/
  | crtcDataR
  /-- Row 21: `fbw OFF, DATA` (R170). -/
  | fbByteW (off : FbOffset) (data : Byte)
  /-- Row 22: `fbr OFF` (R171). -/
  | fbByteR (off : FbOffset)
  /-- Row 23: a write to a port the block does not decode (R187 X2). -/
  | ioUndecodedW (port : Port) (data : Byte)
  /-- Row 24: a read of a port the block does not decode (R187 X2). -/
  | ioUndecodedR (port : Port)
  /-- Row 25: a malformed word, kept whole (R187 X1, log 12). -/
  | malformed (word : Word)
deriving DecidableEq, Repr

end Sys2Proof
end

