-- ==== Sys2Proof/WellFormed.lean ====
section
/-! DEFINITION. When a term of `Instr` stands for a transaction word: the catch-all rows hold only what no row above
them takes (spec/30_encoding.md R73, R75, R77, R78). -/

namespace Sys2Proof

/-- The ten decoded ports (R73). -/
def decodedPorts : List Port :=
  [0x3F8, 0x3F9, 0x3FA, 0x3FB, 0x3FC, 0x3FD, 0x3FE, 0x3FF, 0x3D4, 0x3D5]

/-- X1 (R78): a reserved `SP`, a nonzero `DATA` in a read, or a nonzero `PAD` in format IO. -/
def malformedWord (w : Word) : Bool :=
  w.getLsbD 31 || (!w.getLsbD 29 && w.extractLsb' 0 8 != 0#8) ||
    (!w.getLsbD 30 && w.extractLsb' 24 5 != 0#5)

/-- The fields of an instruction agree with its row of R77. -/
def WellFormed : Instr → Bool
  | .ioUndecodedW port _ => !decodedPorts.contains port
  | .ioUndecodedR port => !decodedPorts.contains port
  | .malformed word => malformedWord word
  | .uartDataW _ | .uartDataR | .uartOff1W _ | .uartOff1R | .uartFcrW _ | .uartOff2R
  | .uartLcrW _ | .uartLcrR | .uartMcrW _ | .uartMcrR | .uartLsrR | .uartLsrW _
  | .uartOff6W _ | .uartOff6R | .uartOff7W _ | .uartOff7R
  | .crtcIndexW _ | .crtcIndexR | .crtcDataW _ | .crtcDataR
  | .fbByteW _ _ | .fbByteR _ => true

end Sys2Proof
end

