-- ==== Sys2Proof/Decode.lean ====
section
/-! DEFINITION. The decoder, total on 32-bit words (spec/30_encoding.md R70 to R79), the encoder and the assembler forms
(R80), the opcode map as a table (R77), and the host's `decodeTableWord`. -/

namespace Sys2Proof

/-! ### Fields of a transaction word (R70, R72) -/

/-- `SP = w[31:30]`. -/
def wordSp (w : Word) : BitVec 2 := w.extractLsb' 30 2

/-- `W = w[29]`. -/
def wordIsWrite (w : Word) : Bool := w.getLsbD 29

/-- `PAD = w[28:24]` of format IO. -/
def wordPad (w : Word) : BitVec 5 := w.extractLsb' 24 5

/-- `PORT = w[23:8]` of format IO. -/
def wordPort (w : Word) : Port := w.extractLsb' 8 16

/-- `OFF = w[28:8]` of format FB. -/
def wordOff (w : Word) : FbOffset := w.extractLsb' 8 21

/-- `DATA = w[7:0]`. -/
def wordData (w : Word) : Byte := w.extractLsb' 0 8

/-! ### Decoding (R76) -/

/-- The port writes of R76's `case PORT of`. -/
def decodePortWrite (port : Port) (data : Byte) : Instr :=
  if port = Config.uartPort 0 then .uartDataW data
  else if port = Config.uartPort 1 then .uartOff1W data
  else if port = Config.uartPort 2 then .uartFcrW data
  else if port = Config.uartPort 3 then .uartLcrW data
  else if port = Config.uartPort 4 then .uartMcrW data
  else if port = Config.uartPort 5 then .uartLsrW data
  else if port = Config.uartPort 6 then .uartOff6W data
  else if port = Config.uartPort 7 then .uartOff7W data
  else if port = Config.crtcCmdPort then .crtcIndexW data
  else if port = Config.crtcDataPort then .crtcDataW data
  else .ioUndecodedW port data

/-- The port reads of R76's `case PORT of`. -/
def decodePortRead (port : Port) : Instr :=
  if port = Config.uartPort 0 then .uartDataR
  else if port = Config.uartPort 1 then .uartOff1R
  else if port = Config.uartPort 2 then .uartOff2R
  else if port = Config.uartPort 3 then .uartLcrR
  else if port = Config.uartPort 4 then .uartMcrR
  else if port = Config.uartPort 5 then .uartLsrR
  else if port = Config.uartPort 6 then .uartOff6R
  else if port = Config.uartPort 7 then .uartOff7R
  else if port = Config.crtcCmdPort then .crtcIndexR
  else if port = Config.crtcDataPort then .crtcDataR
  else .ioUndecodedR port

/-- R76: every word decodes. The words R76 refuses with X1 and X2 decode to the catch-all rows of R77, whose meanings
raise that refusal. -/
def decode (w : Word) : Instr :=
  if wordSp w = 2 ∨ wordSp w = 3 then .malformed w
  else if wordIsWrite w = false ∧ wordData w ≠ 0 then .malformed w
  else if wordSp w = 1 then
    if wordIsWrite w then .fbByteW (wordOff w) (wordData w) else .fbByteR (wordOff w)
  else if wordPad w ≠ 0 then .malformed w
  else if wordIsWrite w then decodePortWrite (wordPort w) (wordData w)
  else decodePortRead (wordPort w)

/-! ### Encoding (R70) -/

/-- A word of format IO: `SP = 00`, `W`, `PAD = 00000`, `PORT`, `DATA`. -/
def ioWord (isWrite : Bool) (port : Port) (data : Byte) : Word :=
  0#2 ++ BitVec.ofBool isWrite ++ 0#5 ++ port ++ data

/-- A word of format FB: `SP = 01`, `W`, `OFF`, `DATA`. -/
def fbWord (isWrite : Bool) (off : FbOffset) (data : Byte) : Word :=
  1#2 ++ BitVec.ofBool isWrite ++ off ++ data

/-- `outb PORT, DATA` (R80). -/
def outb (port : Port) (data : Byte) : Word := ioWord true port data

/-- `inb PORT` (R80). -/
def inb (port : Port) : Word := ioWord false port 0

/-- `fbw OFF, DATA` (R80). -/
def fbw (off : FbOffset) (data : Byte) : Word := fbWord true off data

/-- `fbr OFF` (R80). -/
def fbr (off : FbOffset) : Word := fbWord false off 0

/-- The transaction word of an instruction (R77). -/
def encode : Instr → Word
  | .uartDataW d => outb 0x3F8 d
  | .uartDataR => inb 0x3F8
  | .uartOff1W d => outb 0x3F9 d
  | .uartOff1R => inb 0x3F9
  | .uartFcrW d => outb 0x3FA d
  | .uartOff2R => inb 0x3FA
  | .uartLcrW d => outb 0x3FB d
  | .uartLcrR => inb 0x3FB
  | .uartMcrW d => outb 0x3FC d
  | .uartMcrR => inb 0x3FC
  | .uartLsrR => inb 0x3FD
  | .uartLsrW d => outb 0x3FD d
  | .uartOff6W d => outb 0x3FE d
  | .uartOff6R => inb 0x3FE
  | .uartOff7W d => outb 0x3FF d
  | .uartOff7R => inb 0x3FF
  | .crtcIndexW d => outb 0x3D4 d
  | .crtcIndexR => inb 0x3D4
  | .crtcDataW d => outb 0x3D5 d
  | .crtcDataR => inb 0x3D5
  | .fbByteW off d => fbw off d
  | .fbByteR off => fbr off
  | .ioUndecodedW port d => outb port d
  | .ioUndecodedR port => inb port
  | .malformed w => w

/-! ### The opcode map (R75, R77) -/

/-- One row of the opcode map. `build` reads the row's operand fields from a word that the row matches. -/
structure OpcodeRow where
  number : Nat
  pattern : Word
  mask : Word
  build : Word → Instr

/-- Rows 1 to 10. -/
def opcodeRowsUartLow : List OpcodeRow :=
  [ ⟨1, 0x2003F800, 0xFFFFFF00, fun w => .uartDataW (wordData w)⟩,
    ⟨2, 0x0003F800, 0xFFFFFFFF, fun _ => .uartDataR⟩,
    ⟨3, 0x2003F900, 0xFFFFFF00, fun w => .uartOff1W (wordData w)⟩,
    ⟨4, 0x0003F900, 0xFFFFFFFF, fun _ => .uartOff1R⟩,
    ⟨5, 0x2003FA00, 0xFFFFFF00, fun w => .uartFcrW (wordData w)⟩,
    ⟨6, 0x0003FA00, 0xFFFFFFFF, fun _ => .uartOff2R⟩,
    ⟨7, 0x2003FB00, 0xFFFFFF00, fun w => .uartLcrW (wordData w)⟩,
    ⟨8, 0x0003FB00, 0xFFFFFFFF, fun _ => .uartLcrR⟩,
    ⟨9, 0x2003FC00, 0xFFFFFF00, fun w => .uartMcrW (wordData w)⟩,
    ⟨10, 0x0003FC00, 0xFFFFFFFF, fun _ => .uartMcrR⟩ ]

/-- Rows 11 to 16. -/
def opcodeRowsUartHigh : List OpcodeRow :=
  [ ⟨11, 0x0003FD00, 0xFFFFFFFF, fun _ => .uartLsrR⟩,
    ⟨12, 0x2003FD00, 0xFFFFFF00, fun w => .uartLsrW (wordData w)⟩,
    ⟨13, 0x2003FE00, 0xFFFFFF00, fun w => .uartOff6W (wordData w)⟩,
    ⟨14, 0x0003FE00, 0xFFFFFFFF, fun _ => .uartOff6R⟩,
    ⟨15, 0x2003FF00, 0xFFFFFF00, fun w => .uartOff7W (wordData w)⟩,
    ⟨16, 0x0003FF00, 0xFFFFFFFF, fun _ => .uartOff7R⟩ ]

/-- Rows 17 to 22. -/
def opcodeRowsVga : List OpcodeRow :=
  [ ⟨17, 0x2003D400, 0xFFFFFF00, fun w => .crtcIndexW (wordData w)⟩,
    ⟨18, 0x0003D400, 0xFFFFFFFF, fun _ => .crtcIndexR⟩,
    ⟨19, 0x2003D500, 0xFFFFFF00, fun w => .crtcDataW (wordData w)⟩,
    ⟨20, 0x0003D500, 0xFFFFFFFF, fun _ => .crtcDataR⟩,
    ⟨21, 0x60000000, 0xE0000000, fun w => .fbByteW (wordOff w) (wordData w)⟩,
    ⟨22, 0x40000000, 0xE00000FF, fun w => .fbByteR (wordOff w)⟩ ]

/-- Rows 23 to 25, the catch-alls. -/
def opcodeRowsCatchAll : List OpcodeRow :=
  [ ⟨23, 0x20000000, 0xFF000000, fun w => .ioUndecodedW (wordPort w) (wordData w)⟩,
    ⟨24, 0x00000000, 0xFF0000FF, fun w => .ioUndecodedR (wordPort w)⟩,
    ⟨25, 0x00000000, 0x00000000, fun w => .malformed w⟩ ]

/-- The opcode map of R77, in table order. -/
def opcodeTable : List OpcodeRow :=
  opcodeRowsUartLow ++ opcodeRowsUartHigh ++ opcodeRowsVga ++ opcodeRowsCatchAll

/-- R75: a row matches `w` when `(w & mask) = match`. -/
def OpcodeRow.accepts (row : OpcodeRow) (w : Word) : Bool := w &&& row.mask == row.pattern

/-- R75: rows are tried in table order, and the first that matches decides. -/
def firstMatch (w : Word) : Option OpcodeRow := opcodeTable.find? (·.accepts w)

/-- The first-match decode of R75. -/
def decodeByTable (w : Word) : Option Instr := (firstMatch w).map (·.build w)

/-- The number of an instruction's row in R77. -/
def rowNumber : Instr → Nat
  | .uartDataW _ => 1
  | .uartDataR => 2
  | .uartOff1W _ => 3
  | .uartOff1R => 4
  | .uartFcrW _ => 5
  | .uartOff2R => 6
  | .uartLcrW _ => 7
  | .uartLcrR => 8
  | .uartMcrW _ => 9
  | .uartMcrR => 10
  | .uartLsrR => 11
  | .uartLsrW _ => 12
  | .uartOff6W _ => 13
  | .uartOff6R => 14
  | .uartOff7W _ => 15
  | .uartOff7R => 16
  | .crtcIndexW _ => 17
  | .crtcIndexR => 18
  | .crtcDataW _ => 19
  | .crtcDataR => 20
  | .fbByteW _ _ => 21
  | .fbByteR _ => 22
  | .ioUndecodedW _ _ => 23
  | .ioUndecodedR _ => 24
  | .malformed _ => 25

/-! ### The host's entry -/

/-- The transaction word the host places: its low `nbits` bits, the rest zero. -/
def tableWord (nbits w : Nat) : Word := BitVec.ofNat 32 (w % 2 ^ nbits)

/-- The instruction the decoder reads from the word `w`. Every transaction is one 32-bit word (R70), so a longer one is
refused. -/
def decodeTableWord (nbits w : Nat) : Option Instr :=
  if nbits ≤ 32 then some (decode (tableWord nbits w)) else none

end Sys2Proof
end

