-- ==== Sys2Proof/Machine/State.lean ====
section
/-! DEFINITION. The state of the block, its host agent and its observation (spec/10_state.md, spec/00_scope.md R18), the
reset state (spec/70_reset_and_hazards.md R205), and the reasons a step can stop. -/

namespace Sys2Proof.Machine

/-- The two agents (R4). -/
inductive Agent where
  | host
  | transmitter
deriving DecidableEq, Repr

/-- `DL_PTR` (R25): the byte of the divisor latch the next divisor write writes. -/
inductive DlPtr where
  | high
  | low
deriving DecidableEq, Repr

/-- `FCR_STATE` (R26): what the write-only FIFO-control register retains. -/
structure FcrState where
  /-- `FIFO_EN`. -/
  fifoEn : Bool
  /-- `DMA_MODE`: stored, no effect. -/
  dmaMode : Bool
  /-- `RX_TRIG`: stored, no effect. -/
  rxTrig : BitVec 2
deriving DecidableEq, Repr

/-- A serial-line event `Tx(v, fmt, dl)` (R30, R121). -/
structure TxEvent where
  v : Byte
  /-- `LCR[6:0]`. -/
  fmt : BitVec 7
  dl : BitVec 16
deriving DecidableEq, Repr

/-- Fault codes (R186). Model outcomes the host never sees; the machine goes on. -/
inductive FaultCode where
  | f1TxOverrun
  | f2CrtcIndexUnset
  | f3FbOutOfRange
  | f4FbUnwritten
  | f5CellMisaligned
deriving DecidableEq, Repr

/-- `FAULTS` (R33): one sticky bit per fault code. -/
structure FaultSet where
  f1 : Bool
  f2 : Bool
  f3 : Bool
  f4 : Bool
  f5 : Bool
deriving DecidableEq, Repr

/-- `FAULTS = {}`. -/
def FaultSet.empty : FaultSet := ⟨false, false, false, false, false⟩

/-- The information a fault records (R186): the transaction word, or `off` for F5. -/
inductive FaultInfo where
  | word (w : Word)
  | offset (off : FbOffset)
deriving DecidableEq, Repr

/-- A record of `FAULT_LOG` (R33, R186). -/
structure FaultRecord where
  code : FaultCode
  info : FaultInfo
deriving DecidableEq, Repr

/-- Refusal codes (R187), the values of `REFUSED`. -/
inductive RefusalCode where
  | x1MalformedWord
  | x2UndecodedPort
  | x3UartReservedOffset
  | x4UartReceiveRead
  | x5UartIirRead
  | x6UartLsrWrite
  | x7CrtcRead
  | x8CrtcUnmodelledIndex
  | x9TxLoopback
  | x10TxBreak
  | x11TxDivisor
deriving DecidableEq, Repr

/-- What the host agent does next (log 4, log 14). The pseudo-instructions of R81 are lists of these. -/
inductive HostOp where
  /-- Issue one transaction (R12). -/
  | transaction (w : Word)
  /-- The polling loop of R140: read the line status until bit 5 is 1 (R21). -/
  | pollTxReady
  /-- The alignment check of `WRITE_CELL` at an odd offset (R172, R174): F5, and no transaction. -/
  | cellCheck (off : FbOffset)
deriving DecidableEq, Repr

/-- A completed host transaction with the value it returned, if it is a read (R18, log 10). -/
structure TraceEntry where
  word : Word
  result : Option Byte
deriving DecidableEq, Repr

/-- The framebuffer as (offset, byte) pairs, offsets strictly rising; an offset that is not listed is `UNSET` (R37, log 15). -/
abbrev Memory := List Host.Cell

/-- The state of the machine. `none` in a register is the spec's own value `UNSET` (R11). -/
structure State where
  /-- The parameters of R8. -/
  params : Config.Params
  /-- `LCR` (R22). -/
  lcr : Byte
  /-- `DL_HI` (R24). -/
  dlHi : Option Byte
  /-- `DL_LO` (R24). -/
  dlLo : Option Byte
  /-- `DL_PTR` (R25). -/
  dlPtr : DlPtr
  /-- `FCR_STATE` (R26). -/
  fcr : FcrState
  /-- `MCR` (R28). -/
  mcr : Byte
  /-- `TXQ` (R29), oldest first. -/
  txq : List Byte
  /-- `LINE` (R30), in emission order. -/
  line : List TxEvent
  /-- `CRTC_INDEX` (R35). -/
  crtcIndex : Option Byte
  /-- `CURSOR_HI` (R36). -/
  cursorHi : Option Byte
  /-- `CURSOR_LO` (R36). -/
  cursorLo : Option Byte
  /-- `FB` (R37). -/
  fb : Memory
  /-- `FAULTS` (R33). -/
  faults : FaultSet
  /-- `FAULT_LOG` (R33), oldest first. -/
  faultLog : List FaultRecord
  /-- `REFUSED` (R33); `none` is `NONE`. -/
  refused : Option RefusalCode
  /-- The host's operations not yet issued (log 4). -/
  pending : List HostOp
  /-- `hpos` (R21): how many transactions of the host's sequence are completed. -/
  hpos : Nat
  /-- The completed transactions with the values reads returned (R18), oldest first. -/
  trace : List TraceEntry
  /-- The turns of the free interleaving already fixed (R125, log 5). -/
  turns : List Agent
  /-- How many scheduling values have been used (log 5). -/
  turnDraws : Nat
  /-- How many `draw8()` values have been used (log 7). -/
  draws : Nat
deriving DecidableEq, Repr

/-- The reset state (R205). The parameters are the free values of log 8; the host, trace and free-value fields start
empty or at 0 (DESIGN CHOICE, log 4, 5, 7, 10). -/
def State.reset : State where
  params := Config.resetParams
  lcr := 0x00
  dlHi := none
  dlLo := none
  dlPtr := .high
  fcr := ⟨false, false, 0⟩
  mcr := 0x00
  txq := []
  line := []
  crtcIndex := none
  cursorHi := none
  cursorLo := none
  fb := []
  faults := .empty
  faultLog := []
  refused := none
  pending := []
  hpos := 0
  trace := []
  turns := []
  turnDraws := 0
  draws := 0

/-- Why the machine stops without a refusal (log 3). -/
inductive Fault where
  /-- Raised by `step` alone, when the host has no operation left and `TXQ` is empty: the run is over (R226). Safe: no
  agent has a step. -/
  | runEnded
deriving DecidableEq, Repr

/-- Why the machine refuses to go on. -/
inductive Refusal where
  /-- Raised by an arm of `exec` whose instruction has no meaning yet. No arm of this model raises it. Safe. -/
  | notModelled (mnemonic : String)
  /-- Raised by `step` in a state whose `REFUSED` holds a code: no agent takes another step (R189, log 3). Safe. -/
  | halted (code : RefusalCode)
deriving DecidableEq, Repr

end Sys2Proof.Machine
end

