-- ==== Sys2Proof/Machine/Operands.lean ====
section
/-! DEFINITION. The fields of the bytes transactions move: LCR, FCR and MCR fields (spec/10_state.md R22, R26, R28), the
readiness bit (spec/42_uart_sequences.md R139), 16-bit values as byte pairs (spec/00_scope.md R10) and the cell attribute
(spec/44_vga_framebuffer.md R173, R175). -/

namespace Sys2Proof.Machine

/-! ### 16-bit values (R10, R53) -/

/-- `high(d) = d[15:8]`. -/
def high (d : BitVec 16) : Byte := d.extractLsb' 8 8

/-- `low(d) = d[7:0]`. -/
def low (d : BitVec 16) : Byte := d.extractLsb' 0 8

/-- `{h, l}`. -/
def pair (h l : Byte) : BitVec 16 := h ++ l

/-! ### Line control (R22) -/

/-- `LCR.DLAB`, bit 7. -/
def lcrDlab (v : Byte) : Bool := v.getLsbD 7

/-- `LCR.BRK`, bit 6. -/
def lcrBrk (v : Byte) : Bool := v.getLsbD 6

/-- `LCR.PAR`, bits 5:3. -/
def lcrPar (v : Byte) : BitVec 3 := v.extractLsb' 3 3

/-- `LCR.STB`, bit 2. -/
def lcrStb (v : Byte) : Bool := v.getLsbD 2

/-- `LCR.WLS`, bits 1:0. -/
def lcrWls (v : Byte) : BitVec 2 := v.extractLsb' 0 2

/-- `fmt = LCR[6:0]` (R121). -/
def lcrFmt (v : Byte) : BitVec 7 := v.extractLsb' 0 7

/-! ### FIFO control (R26) -/

/-- `FIFOE`, bit 0. -/
def fcrFifoe (v : Byte) : Bool := v.getLsbD 0

/-- `TXCLR`, bit 2. -/
def fcrTxclr (v : Byte) : Bool := v.getLsbD 2

/-- What an FCR write retains (R95): `FIFOE`, `DMA` (bit 3) and `TRIG` (bits 7:6). Bit 1 (RXCLR) has no effect here and
bits 5:4 are ignored. -/
def fcrRetained (v : Byte) : FcrState := ⟨fcrFifoe v, v.getLsbD 3, v.extractLsb' 6 2⟩

/-! ### Modem control (R28) -/

/-- `MCR.DTR`, bit 0. -/
def mcrDtr (v : Byte) : Bool := v.getLsbD 0

/-- `MCR.RTS`, bit 1. -/
def mcrRts (v : Byte) : Bool := v.getLsbD 1

/-- `MCR.OUT1`, bit 2. -/
def mcrOut1 (v : Byte) : Bool := v.getLsbD 2

/-- `MCR.OUT2`, bit 3. -/
def mcrOut2 (v : Byte) : Bool := v.getLsbD 3

/-- `MCR.LOOP`, bit 4. -/
def mcrLoop (v : Byte) : Bool := v.getLsbD 4

/-! ### Line status (R101, R139) -/

/-- R101: a drawn byte with bit 5 replaced by `THRE`. -/
def lsrWithThre (drawn : Byte) (thre : Bool) : Byte :=
  (drawn &&& 0xDF#8) ||| (if thre then 0x20#8 else 0x00#8)

/-- R139: `b = ((r & 0x20) != 0)`. -/
def readyBit (r : Byte) : Bool := r &&& 0x20#8 != 0x00#8

/-! ### The attribute byte (R173, R175) -/

/-- R173: `a = ((fg & 0x0F) << 4) | (bg & 0x0F)`. -/
def packAttr (fg bg : Byte) : Byte := ((fg &&& 0x0F#8) <<< 4) ||| (bg &&& 0x0F#8)

/-- R175: `fg = a[7:4]`. -/
def attrFg (a : Byte) : BitVec 4 := a.extractLsb' 4 4

/-- R175: `bg = a[3:0]`. -/
def attrBg (a : Byte) : BitVec 4 := a.extractLsb' 0 4

end Sys2Proof.Machine
end

