-- ==== Sys2Proof/Machine/Flags.lean ====
section
/-! DEFINITION. What is derived from the state and not stored: `LSR.THRE` (spec/10_state.md R27), `CAP` (R29), `DL` (R24),
`BAUD` (R31), `CURSOR_POS` (R41), the modem outputs (spec/00_scope.md R17), `TxEnabled`
(spec/41_uart_transmitter.md R120) and the fault bits (R33). -/

namespace Sys2Proof.Machine

/-- `LSR.THRE` (R27): 1 exactly when `TXQ` is empty. -/
def State.thre (s : State) : Bool := s.txq.isEmpty

/-- `CAP` (R29). -/
def State.cap (s : State) : Nat := if s.fcr.fifoEn then s.params.txFifoDepth else 1

/-- `LCR.DLAB` (R23). -/
def State.dlab (s : State) : Bool := lcrDlab s.lcr

/-- `DL` (R24): a value only when both bytes are set. -/
def State.dl (s : State) : Option (BitVec 16) :=
  match s.dlHi, s.dlLo with
  | some h, some l => some (pair h l)
  | _, _ => none

/-- `BAUD = 115200 / DL`, an exact rational, defined when `DL` is set and nonzero (R31). -/
def State.baud (s : State) : Option Rat :=
  match s.dl with
  | some d => if d = 0 then none else some ((Config.baudClock : Rat) / (d.toNat : Rat))
  | none => none

/-- `CURSOR_POS` (R41). -/
def State.cursorPos (s : State) : Option (BitVec 16) :=
  match s.cursorHi, s.cursorLo with
  | some h, some l => some (pair h l)
  | _, _ => none

/-- `DTR_OUT` (R17). -/
def State.dtrOut (s : State) : Bool := mcrDtr s.mcr

/-- `RTS_OUT` (R17). -/
def State.rtsOut (s : State) : Bool := mcrRts s.mcr

/-- `OUT1_OUT` (R17). -/
def State.out1Out (s : State) : Bool := mcrOut1 s.mcr

/-- `OUT2_OUT` (R17). -/
def State.out2Out (s : State) : Bool := mcrOut2 s.mcr

/-- The host address of a framebuffer byte (R17, R50). -/
def State.fbHostAddress (s : State) (off : FbOffset) : Nat := s.params.fbBase + off.toNat

/-- `TxEnabled` (R120). -/
def State.txEnabled (s : State) : Bool := !s.txq.isEmpty && s.refused.isNone

/-- Whether a fault code is in the set (R33). -/
def FaultSet.has (f : FaultSet) : FaultCode → Bool
  | .f1TxOverrun => f.f1
  | .f2CrtcIndexUnset => f.f2
  | .f3FbOutOfRange => f.f3
  | .f4FbUnwritten => f.f4
  | .f5CellMisaligned => f.f5

/-- Set one fault bit (R186). -/
def FaultSet.set (f : FaultSet) : FaultCode → FaultSet
  | .f1TxOverrun => { f with f1 := true }
  | .f2CrtcIndexUnset => { f with f2 := true }
  | .f3FbOutOfRange => { f with f3 := true }
  | .f4FbUnwritten => { f with f4 := true }
  | .f5CellMisaligned => { f with f5 := true }

/-- The value the last completed read returned (R18). -/
def State.lastResult (s : State) : Option Byte := s.trace.getLast?.bind (·.result)

end Sys2Proof.Machine
end

