-- ==== Sys2Proof/Machine/Ops.lean ====
section
/-! DEFINITION. The operations the meanings share: framebuffer storage (spec/20_memory.md R52), raising a fault and
refusing (spec/00_scope.md R13, spec/60_exceptions.md R186, R187), drawing a free byte (R11), completing a transaction
(R18), and the register and queue operations of spec/40_uart_registers.md. -/

namespace Sys2Proof.Machine

/-! ### Framebuffer storage (R37, R52) -/

/-- The byte at an offset; `none` is `UNSET`. -/
def Memory.read : Memory → Nat → Option Byte
  | [], _ => none
  | (a, b) :: rest, off => if off = a then some b else Memory.read rest off

/-- Store a byte, keeping the offsets strictly rising. -/
def Memory.write : Memory → Nat → Byte → Memory
  | [], off, v => [(off, v)]
  | (a, b) :: rest, off, v =>
    if off < a then (off, v) :: (a, b) :: rest
    else if off = a then (off, v) :: rest
    else (a, b) :: Memory.write rest off v

/-- The canonical form: offsets strictly rising. An unlisted offset is `UNSET`, which no entry can equal. -/
def Memory.wf : Memory → Bool
  | [] => true
  | [_] => true
  | (a, _) :: (a', b') :: rest => decide (a < a') && Memory.wf ((a', b') :: rest)

/-! ### Faults, refusals, draws, completion -/

/-- `raise Fault(Fk)(info)` (R13, R186, R192): set the sticky bit and append the record. This is all a fault saves; it
transfers no control, and no return exists (R193). -/
def State.raise (s : State) (code : FaultCode) (info : FaultInfo) : State :=
  { s with faults := s.faults.set code, faultLog := s.faultLog ++ [⟨code, info⟩] }

/-- `refuse Xk` (R13, R187, R189): set the mark, and nothing else. -/
def State.refuse (s : State) (code : RefusalCode) : State := { s with refused := some code }

/-- `draw8()` (R11, log 7): the next free byte, and the state that has used it. -/
def State.draw (s : State) : Byte × State :=
  (Config.draw8 s.draws, { s with draws := s.draws + 1 })

/-- A transaction completes: the observation records its word and the value it returned (R18, log 10, log 13). -/
def State.complete (s : State) (i : Instr) (result : Option Byte) : State :=
  { s with trace := s.trace ++ [⟨encode i, result⟩] }

/-! ### UART operations -/

/-- `ThrWrite` (R91). -/
def State.thrWrite (s : State) (i : Instr) (data : Byte) : State :=
  if s.txq.length < s.cap then { s with txq := s.txq ++ [data] }
  else s.raise .f1TxOverrun (.word (encode i))

/-- `DivisorWrite` (R92). -/
def State.divisorWrite (s : State) (data : Byte) : State :=
  match s.dlPtr with
  | .high => { s with dlHi := some data, dlPtr := .low }
  | .low => { s with dlLo := some data, dlPtr := .high }

/-- The FCR write (R95). -/
def State.fcrWrite (s : State) (data : Byte) : State :=
  { s with
    txq := if fcrFifoe data ≠ s.fcr.fifoEn ∨ fcrTxclr data = true then [] else s.txq
    fcr := fcrRetained data }

/-- The LCR write (R97). -/
def State.lcrWrite (s : State) (data : Byte) : State := { s with lcr := data, dlPtr := .high }

/-- The LSR read (R101): the value returned, and the state that has used a draw. -/
def State.lsrRead (s : State) : Byte × State :=
  let (drawn, t) := s.draw
  (lsrWithThre drawn s.thre, t)

/-! ### VGA operations -/

/-- The CRTC data write (R157, R159): `CRTC_INDEX` selects the register. A refused write does not complete (R189). -/
def State.crtcDataWrite (s : State) (i : Instr) (data : Byte) : State :=
  match s.crtcIndex with
  | none => (s.raise .f2CrtcIndexUnset (.word (encode i))).complete i none
  | some index =>
    if index = Config.crtcCursorHi then { s with cursorHi := some data }.complete i none
    else if index = Config.crtcCursorLo then { s with cursorLo := some data }.complete i none
    else s.refuse .x8CrtcUnmodelledIndex

/-- The framebuffer byte write (R170). -/
def State.fbWrite (s : State) (i : Instr) (off : FbOffset) (data : Byte) : State :=
  if s.params.fbSize ≤ off.toNat then s.raise .f3FbOutOfRange (.word (encode i))
  else { s with fb := s.fb.write off.toNat data }

/-- The framebuffer byte read (R171): the value returned, and the state after it. F3 is checked before F4 (R190). -/
def State.fbRead (s : State) (i : Instr) (off : FbOffset) : Byte × State :=
  if s.params.fbSize ≤ off.toNat then (s.raise .f3FbOutOfRange (.word (encode i))).draw
  else
    match s.fb.read off.toNat with
    | none => (s.raise .f4FbUnwritten (.word (encode i))).draw
    | some v => (v, s)

end Sys2Proof.Machine
end

