-- ==== Sys2Proof/Machine/Uart.lean ====
section
/-! DEFINITION. The UART register transactions, rows 1 to 16 of the opcode map (spec/40_uart_registers.md). A completed
transaction is recorded; a refused one changes only `REFUSED` (spec/60_exceptions.md R189). -/

namespace Sys2Proof.Machine

/-- What a meaning answers: every transaction of this block leads to a next state (R185). -/
abbrev Answer := Host.Outcome State Fault Refusal

/-- `UART_DATA_W` (R90): `DivisorWrite` under DLAB = 1, `ThrWrite` under DLAB = 0. -/
def execUartDataW (data : Byte) (s : State) : Answer :=
  let i := Instr.uartDataW data
  if s.dlab then .next ((s.divisorWrite data).complete i none)
  else .next ((s.thrWrite i data).complete i none)

/-- `UART_DATA_R` (R93): X4 in either DLAB state. -/
def execUartDataR (s : State) : Answer := .next (s.refuse .x4UartReceiveRead)

/-- `UART_OFF1_W` (R94): X3. -/
def execUartOff1W (_data : Byte) (s : State) : Answer := .next (s.refuse .x3UartReservedOffset)

/-- `UART_OFF1_R` (R94): X3. -/
def execUartOff1R (s : State) : Answer := .next (s.refuse .x3UartReservedOffset)

/-- `UART_FCR_W` (R95). -/
def execUartFcrW (data : Byte) (s : State) : Answer :=
  .next ((s.fcrWrite data).complete (.uartFcrW data) none)

/-- `UART_OFF2_R` (R96): X5. -/
def execUartOff2R (s : State) : Answer := .next (s.refuse .x5UartIirRead)

/-- `UART_LCR_W` (R97). -/
def execUartLcrW (data : Byte) (s : State) : Answer :=
  .next ((s.lcrWrite data).complete (.uartLcrW data) none)

/-- `UART_LCR_R` (R98). -/
def execUartLcrR (s : State) : Answer := .next (s.complete .uartLcrR (some s.lcr))

/-- `UART_MCR_W` (R99). -/
def execUartMcrW (data : Byte) (s : State) : Answer :=
  .next ({ s with mcr := data }.complete (.uartMcrW data) none)

/-- `UART_MCR_R` (R100). -/
def execUartMcrR (s : State) : Answer := .next (s.complete .uartMcrR (some s.mcr))

/-- `UART_LSR_R` (R101). -/
def execUartLsrR (s : State) : Answer :=
  let (r, t) := s.lsrRead
  .next (t.complete .uartLsrR (some r))

/-- `UART_LSR_W` (R102): X6. -/
def execUartLsrW (_data : Byte) (s : State) : Answer := .next (s.refuse .x6UartLsrWrite)

/-- `UART_OFF6_W` (R103): X3. -/
def execUartOff6W (_data : Byte) (s : State) : Answer := .next (s.refuse .x3UartReservedOffset)

/-- `UART_OFF6_R` (R103): X3. -/
def execUartOff6R (s : State) : Answer := .next (s.refuse .x3UartReservedOffset)

/-- `UART_OFF7_W` (R103): X3. -/
def execUartOff7W (_data : Byte) (s : State) : Answer := .next (s.refuse .x3UartReservedOffset)

/-- `UART_OFF7_R` (R103): X3. -/
def execUartOff7R (s : State) : Answer := .next (s.refuse .x3UartReservedOffset)

end Sys2Proof.Machine
end

