-- ==== Sys2Proof/Machine/Crtc.lean ====
section
/-! DEFINITION. The CRT-controller transactions, rows 17 to 20 of the opcode map (spec/43_vga_cursor.md). -/

namespace Sys2Proof.Machine

/-- `CRTC_INDEX_W` (R155): every value is stored. -/
def execCrtcIndexW (data : Byte) (s : State) : Answer :=
  .next ({ s with crtcIndex := some data }.complete (.crtcIndexW data) none)

/-- `CRTC_INDEX_R` (R156): X7. -/
def execCrtcIndexR (s : State) : Answer := .next (s.refuse .x7CrtcRead)

/-- `CRTC_DATA_W` (R157): cursor register 14 or 15, F2 with the index `UNSET`, X8 with any other index (R159). -/
def execCrtcDataW (data : Byte) (s : State) : Answer := .next (s.crtcDataWrite (.crtcDataW data) data)

/-- `CRTC_DATA_R` (R158): X7. -/
def execCrtcDataR (s : State) : Answer := .next (s.refuse .x7CrtcRead)

end Sys2Proof.Machine
end

