-- ==== Sys2Proof/Machine/Framebuffer.lean ====
section
/-! DEFINITION. The framebuffer transactions, rows 21 and 22 of the opcode map (spec/44_vga_framebuffer.md). -/

namespace Sys2Proof.Machine

/-- `FB_BYTE_W` (R170). -/
def execFbByteW (off : FbOffset) (data : Byte) (s : State) : Answer :=
  let i := Instr.fbByteW off data
  .next ((s.fbWrite i off data).complete i none)

/-- `FB_BYTE_R` (R171). -/
def execFbByteR (off : FbOffset) (s : State) : Answer :=
  let i := Instr.fbByteR off
  let (v, t) := s.fbRead i off
  .next (t.complete i (some v))

end Sys2Proof.Machine
end

