-- ==== Sys2Proof/Machine/CatchAll.lean ====
section
/-! DEFINITION. The catch-all rows 23 to 25 of the opcode map: words that are no transaction of the block
(spec/30_encoding.md R78, spec/60_exceptions.md R187). -/

namespace Sys2Proof.Machine

/-- `IO_UNDECODED_W` (R187): X2. -/
def execIoUndecodedW (_port : Port) (_data : Byte) (s : State) : Answer :=
  .next (s.refuse .x2UndecodedPort)

/-- `IO_UNDECODED_R` (R187): X2. -/
def execIoUndecodedR (_port : Port) (s : State) : Answer := .next (s.refuse .x2UndecodedPort)

/-- `MALFORMED` (R187): X1. -/
def execMalformed (_word : Word) (s : State) : Answer := .next (s.refuse .x1MalformedWord)

end Sys2Proof.Machine
end

