-- ==== Sys2Proof/Machine/Dispatch.lean ====
section
/-! DEFINITION. One arm per row of the opcode map (spec/30_encoding.md R77). -/

namespace Sys2Proof.Machine

-- The meaning of a decoded transaction.
def exec (i : Instr) (s : State) : Host.Outcome State Fault Refusal :=
  match i with
  | .uartDataW data => Sys2Proof.Machine.execUartDataW data s
  | .uartDataR => Sys2Proof.Machine.execUartDataR s
  | .uartOff1W data => Sys2Proof.Machine.execUartOff1W data s
  | .uartOff1R => Sys2Proof.Machine.execUartOff1R s
  | .uartFcrW data => Sys2Proof.Machine.execUartFcrW data s
  | .uartOff2R => Sys2Proof.Machine.execUartOff2R s
  | .uartLcrW data => Sys2Proof.Machine.execUartLcrW data s
  | .uartLcrR => Sys2Proof.Machine.execUartLcrR s
  | .uartMcrW data => Sys2Proof.Machine.execUartMcrW data s
  | .uartMcrR => Sys2Proof.Machine.execUartMcrR s
  | .uartLsrR => Sys2Proof.Machine.execUartLsrR s
  | .uartLsrW data => Sys2Proof.Machine.execUartLsrW data s
  | .uartOff6W data => Sys2Proof.Machine.execUartOff6W data s
  | .uartOff6R => Sys2Proof.Machine.execUartOff6R s
  | .uartOff7W data => Sys2Proof.Machine.execUartOff7W data s
  | .uartOff7R => Sys2Proof.Machine.execUartOff7R s
  | .crtcIndexW data => Sys2Proof.Machine.execCrtcIndexW data s
  | .crtcIndexR => Sys2Proof.Machine.execCrtcIndexR s
  | .crtcDataW data => Sys2Proof.Machine.execCrtcDataW data s
  | .crtcDataR => Sys2Proof.Machine.execCrtcDataR s
  | .fbByteW off data => Sys2Proof.Machine.execFbByteW off data s
  | .fbByteR off => Sys2Proof.Machine.execFbByteR off s
  | .ioUndecodedW port data => Sys2Proof.Machine.execIoUndecodedW port data s
  | .ioUndecodedR port => Sys2Proof.Machine.execIoUndecodedR port s
  | .malformed word => Sys2Proof.Machine.execMalformed word s

end Sys2Proof.Machine
end

