-- ==== Sys2Proof/Machine/Transmitter.lean ====
section
/-! DEFINITION. The transmitter agent (spec/41_uart_transmitter.md). -/

namespace Sys2Proof.Machine

/-- The refusal a transmitter step would meet, checked in the order X9, X10, X11 (R122, R123, R190). -/
def State.txBlock (s : State) : Option RefusalCode :=
  if mcrLoop s.mcr then some .x9TxLoopback
  else if lcrBrk s.lcr then some .x10TxBreak
  else
    match s.dl with
    | none => some .x11TxDivisor
    | some d => if d = 0 then some .x11TxDivisor else none

/-- `TxStep` (R122), for a state where it is enabled (R120). With an empty queue there is no step: the state is left as it
is, and `step` never asks (log 17). -/
def State.txStep (s : State) : State :=
  match s.txq with
  | [] => s
  | v :: rest =>
    match s.txBlock with
    | some x => s.refuse x
    | none => { s with txq := rest, line := s.line ++ [⟨v, lcrFmt s.lcr, s.dl.getD 0⟩] }

end Sys2Proof.Machine
end

