-- ==== Sys2Proof/Machine/Schedule.lean ====
section
/-! DEFINITION. Which agent moves next (spec/20_memory.md R60, spec/41_uart_transmitter.md R124, R125,
spec/60_exceptions.md R191). The interleaving is free: the turns listed in the state are taken first, and when they are
used up the next ones come from the free values of Config (log 5, log 6). -/

namespace Sys2Proof.Machine

/-- What happens next. -/
inductive Move where
  /-- The host issues. -/
  | host
  /-- The transmitter steps. -/
  | transmitter
  /-- Under `TX_FAIR = false`, the host is done and the transmitter does not step now (R124). -/
  | stall
  /-- No agent has a step (R226). -/
  | ended
deriving DecidableEq, Repr

/-- The turns that follow once the listed ones are used up. Under `TX_FAIR = true`, the host's free number of turns and
then the transmitter's: every weakly fair interleaving and no other (R124). Otherwise any one turn. -/
def freshTurns (fair : Bool) (n : Nat) : List Agent :=
  if fair then List.replicate (Config.hostTurns n) .host ++ [.transmitter]
  else [if Config.freeTurn n then .transmitter else .host]

/-- Replace the fields of the interleaving. -/
def State.setTurns (s : State) (ts : List Agent) (n : Nat) : State := { s with turns := ts, turnDraws := n }

/-- Take the next turn. -/
def State.takeTurn (s : State) : Agent × State :=
  match s.turns with
  | a :: rest => (a, s.setTurns rest s.turnDraws)
  | [] =>
    match freshTurns s.params.txFair s.turnDraws with
    | a :: rest => (a, s.setTurns rest (s.turnDraws + 1))
    | [] => (.host, s)

/-- Which agent moves, and the state with its turn taken. A turn is used only where there is a choice. -/
def State.nextMove (s : State) : Move × State :=
  match s.pending.isEmpty, s.txEnabled with
  | true, false => (.ended, s)
  | false, false => (.host, s)
  | false, true =>
    match s.takeTurn with
    | (.host, t) => (.host, t)
    | (.transmitter, t) => (.transmitter, t)
  | true, true =>
    if s.params.txFair then (.transmitter, s)
    else
      match s.takeTurn with
      | (.host, t) => (.stall, t)
      | (.transmitter, t) => (.transmitter, t)

end Sys2Proof.Machine
end

