-- ==== Sys2Proof/Machine/Sequences.lean ====
section
/-! DEFINITION. The pseudo-instructions (spec/30_encoding.md R81) as the host operations they expand to
(spec/42_uart_sequences.md, spec/43_vga_cursor.md, spec/44_vga_framebuffer.md). -/

namespace Sys2Proof.Machine

/-- The six transactions of `CONFIGURE d` (R135). -/
def configureWords (d : BitVec 16) : List Word :=
  [outb 0x3FB 0x80, outb 0x3F8 (high d), outb 0x3F8 (low d), outb 0x3FB 0x03, outb 0x3FA 0xC7, outb 0x3FC 0x03]

/-- `CONFIGURE d` (R135). -/
def configure (d : BitVec 16) : List HostOp := (configureWords d).map .transaction

/-- `IS_TX_READY` (R139): one line-status read; its answer is `readyBit` of the value read. -/
def isTxReady : List HostOp := [.transaction (inb 0x3FD)]

/-- `WRITE buf, n` (R141): a poll before every byte. -/
def writeBytes (buf : List Byte) : List HostOp :=
  buf.flatMap fun b => [.pollTxReady, .transaction (outb 0x3F8 b)]

/-- `WRITE_SINGLECHECK buf, n` (R143): one poll, then every byte. -/
def writeSingleCheck (buf : List Byte) : List HostOp :=
  .pollTxReady :: buf.map fun b => .transaction (outb 0x3F8 b)

/-- The four transactions of `MOVE_CURSOR pos` (R160). -/
def moveCursorWords (pos : BitVec 16) : List Word :=
  [outb 0x3D4 14, outb 0x3D5 (high pos), outb 0x3D4 15, outb 0x3D5 (low pos)]

/-- `MOVE_CURSOR pos` (R160). -/
def moveCursor (pos : BitVec 16) : List HostOp := (moveCursorWords pos).map .transaction

/-- The reversed order of R162. -/
def moveCursorReversedWords (pos : BitVec 16) : List Word :=
  [outb 0x3D4 15, outb 0x3D5 (low pos), outb 0x3D4 14, outb 0x3D5 (high pos)]

/-- Whether an offset is odd (R174). -/
def oddOffset (off : FbOffset) : Bool := off.getLsbD 0

/-- `WRITE_CELL off, c, fg, bg` (R172): at an odd offset the check alone, which raises F5; else the two byte writes. An
even offset plus one stays within 21 bits. -/
def writeCell (off : FbOffset) (c fg bg : Byte) : List HostOp :=
  if oddOffset off then [.cellCheck off]
  else [.transaction (fbw off c), .transaction (fbw (off + 1) (packAttr fg bg))]

/-- `READ_CELL off` (R175): the two byte reads; `attrFg` and `attrBg` take the second apart. R175 gives it for an even
`off < FB_SIZE`. DESIGN CHOICE (log 14): at any other offset the same two reads are issued with no check, and `off + 1` is
taken in 21 bits, so that it wraps to 0 at `0x1FFFFF`. -/
def readCell (off : FbOffset) : List HostOp := [.transaction (fbr off), .transaction (fbr (off + 1))]

end Sys2Proof.Machine
end

