-- ==== Sys2Proof/Machine/HostAgent.lean ====
section
/-! DEFINITION. The host agent's side of a step (spec/00_scope.md R12, spec/10_state.md R21): issuing the next operation and
advancing past it. `hpos` advances by 1 per completed transaction; a refused one is not completed (R189, log 11). -/

namespace Sys2Proof.Machine

/-- Apply a function to a next state. -/
def mapNext (f : State → State) : Answer → Answer
  | .next t => .next (f t)
  | .fault r => .fault r
  | .refused r => .refused r

/-- Move past the operation just completed (R21). -/
def State.advance (s : State) : State := { s with pending := s.pending.tail, hpos := s.hpos + 1 }

/-- Past a transaction, unless it was refused (R189). -/
def State.afterTransaction (s : State) : State := if s.refused.isNone then s.advance else s

/-- Past the polling loop only when the read returned bit 5 = 1 (R140, R21). -/
def State.afterPoll (s : State) : State :=
  match s.lastResult with
  | some r => if readyBit r then s.advance else s
  | none => s

/-- The alignment check of `WRITE_CELL` (R172, R174): F5 at an odd offset, and no transaction, so `hpos` stays. -/
def State.cellCheckStep (s : State) (off : FbOffset) : State :=
  let t := if oddOffset off then s.raise .f5CellMisaligned (.offset off) else s
  { t with pending := t.pending.tail }

/-- The host issues its next operation. With none left it has no step; `step` never asks then. -/
def State.hostStep (s : State) : Answer :=
  match s.pending with
  | [] => .fault .runEnded
  | .transaction w :: _ => mapNext State.afterTransaction (exec (decode w) s)
  | .pollTxReady :: _ => mapNext State.afterPoll (exec .uartLsrR s)
  | .cellCheck off :: _ => .next (s.cellCheckStep off)

/-- Place `w` as the host's next transaction, with the host's turn next where there is a choice (log 4). -/
def State.placeWord (s : State) (w : Word) : State :=
  { s with
    pending := .transaction w :: s.pending.tail
    turns := if s.txq.isEmpty then s.turns else .host :: s.turns }

end Sys2Proof.Machine
end

