-- ==== Sys2Proof/Machine/Step.lean ====
section
/-! DEFINITION. One step: one host transaction or one transmitter step, in one total order (spec/20_memory.md R57, R60).
After a refusal no agent steps (spec/60_exceptions.md R189). -/

namespace Sys2Proof.Machine

/-- One step of the machine. -/
def step (s : State) : Host.Outcome State Fault Refusal :=
  match s.refused with
  | some x => .refused (.halted x)
  | none =>
    match s.nextMove with
    | (.host, t) => t.hostStep
    | (.transmitter, t) => .next t.txStep
    | (.stall, t) => .next t
    | (.ended, _) => .fault .runEnded

/-- The state in which the word `w` is the host's next transaction and the host moves next. -/
def State.withFetchWord (s : State) (nbits w : Nat) : State := s.placeWord (tableWord nbits w)

end Sys2Proof.Machine
end

