-- ==== Sys2Proof/Safety.lean ====
section
/-! DEFINITION. The terms claims are stated in: the launch premises (spec/70_reset_and_hazards.md R228), `Configured(d)`
(spec/00_scope.md R16), the observation (R18), the ends of a run (R226, R227) and the invariant of the machine. -/

namespace Sys2Proof.Machine

/-! ### Launch premises (R228) -/

/-- `AtReset`: the state is the reset state, whatever the parameters, the host's program and the free choices. -/
def AtReset (s : State) : Prop :=
  s = { State.reset with
    params := s.params, pending := s.pending, turns := s.turns, turnDraws := s.turnDraws, draws := s.draws }

/-- `NoFault`. -/
def NoFault (s : State) : Prop := s.faults = .empty ∧ s.refused = none

/-- `Configured(d)` (R16). -/
def Configured (d : BitVec 16) (s : State) : Prop :=
  s.lcr = 0x03 ∧ s.dl = some d ∧ s.fcr.fifoEn = true ∧ s.fcr.rxTrig = 0b11 ∧ s.mcr = 0x03

/-- `ConfiguredFor(d)`. -/
def ConfiguredFor (d : BitVec 16) (s : State) : Prop := Configured d s ∧ d ≠ 0 ∧ s.txq = []

/-- `Fair`. -/
def Fair (s : State) : Prop := s.params.txFair = true

/-- `FbParams`. -/
def FbParams (s : State) : Prop := s.params.ok

/-! ### Runs, their end, and the observation -/

/-- `drained` (R227). -/
def Drained (s : State) : Prop := s.txq = []

/-- End form (a) of R226: the host has issued the last transaction of its program, and the queue is drained. -/
def EndOfRun (s : State) : Prop := s.pending = [] ∧ Drained s

/-- An acceptable end of form (a) (R188, R189, R226): no fault bit and no refusal. -/
def GoodEnd (s : State) : Prop := EndOfRun s ∧ NoFault s

/-- End form (b) of R226: the step from `s` to `t` was the host's last, so `t` is the state at the host's last transaction.
`TXQ` may be non-empty there. -/
def IssuesLast (s t : State) : Prop := s.pending ≠ [] ∧ step s = .next t ∧ t.pending = []

/-- An acceptable end of form (b) (R188, R189, R226): no fault bit and no refusal. -/
def GoodEndAtLast (s t : State) : Prop := IssuesLast s t ∧ NoFault t

/-- What a claim speaks of (R18). DESIGN CHOICE (log 18): "the final register values" are those of every register of the
block, the ones R39 lists as hidden among them and each byte of a pair by itself, with `LSR` by its bit `THRE`. -/
structure Observation where
  trace : List TraceEntry
  line : List TxEvent
  lcr : Byte
  dlHi : Option Byte
  dlLo : Option Byte
  dlPtr : DlPtr
  fcr : FcrState
  mcr : Byte
  thre : Bool
  crtcIndex : Option Byte
  cursorHi : Option Byte
  cursorLo : Option Byte
  cursorPos : Option (BitVec 16)
  fb : Memory
  faults : FaultSet
  refused : Option RefusalCode
deriving DecidableEq, Repr

/-- The observation of a state (R18). -/
def State.observe (s : State) : Observation where
  trace := s.trace
  line := s.line
  lcr := s.lcr
  dlHi := s.dlHi
  dlLo := s.dlLo
  dlPtr := s.dlPtr
  fcr := s.fcr
  mcr := s.mcr
  thre := s.thre
  crtcIndex := s.crtcIndex
  cursorHi := s.cursorHi
  cursorLo := s.cursorLo
  cursorPos := s.cursorPos
  fb := s.fb
  faults := s.faults
  refused := s.refused

/-- `k` steps of the machine. -/
abbrev run (k : Nat) (s : State) : Answer := Sys2Proof.core.run k s

/-- Issue transactions one after the other, with no transmitter step between them. -/
def execWords : List Word → State → Answer
  | [], s => .next s
  | w :: ws, s =>
    match exec (decode w) s with
    | .next t => execWords ws t
    | .fault r => .fault r
    | .refused r => .refused r

/-! ### The two parts of the block (R1, R177) -/

/-- Transactions of the UART: rows 1 to 16. -/
def isUart (i : Instr) : Bool := rowNumber i ≤ 16

/-- Transactions of the text display interface: rows 17 to 22. -/
def isVga (i : Instr) : Bool := 17 ≤ rowNumber i && rowNumber i ≤ 22

/-- The UART's state is the same in both. -/
def SameUart (s t : State) : Prop :=
  s.lcr = t.lcr ∧ s.dlHi = t.dlHi ∧ s.dlLo = t.dlLo ∧ s.dlPtr = t.dlPtr ∧ s.fcr = t.fcr ∧ s.mcr = t.mcr ∧
    s.txq = t.txq ∧ s.line = t.line

/-- The display interface's state is the same in both. -/
def SameVga (s t : State) : Prop :=
  s.crtcIndex = t.crtcIndex ∧ s.cursorHi = t.cursorHi ∧ s.cursorLo = t.cursorLo ∧ s.fb = t.fb

/-- The model outcomes are the same in both (R33). -/
def SameOutcomes (s t : State) : Prop :=
  s.faults = t.faults ∧ s.faultLog = t.faultLog ∧ s.refused = t.refused

/-- The parameters, the host's program and the interleaving are the same in both: no transaction's own effect touches
them. -/
def SameHost (s t : State) : Prop :=
  s.params = t.params ∧ s.pending = t.pending ∧ s.hpos = t.hpos ∧ s.turns = t.turns ∧ s.turnDraws = t.turnDraws

/-! ### The invariant -/

/-- A record of `FAULT_LOG` names a transaction that can raise its code, or an odd offset for F5 (R186). -/
def FaultRecord.ok (r : FaultRecord) : Bool :=
  match r.code, r.info with
  | .f1TxOverrun, .word w => rowNumber (decode w) == 1
  | .f2CrtcIndexUnset, .word w => rowNumber (decode w) == 19
  | .f3FbOutOfRange, .word w => rowNumber (decode w) == 21 || rowNumber (decode w) == 22
  | .f4FbUnwritten, .word w => rowNumber (decode w) == 22
  | .f5CellMisaligned, .offset off => oddOffset off
  | _, _ => false

/-- The invariant of the machine: the parameters are admitted (R8), the queue is within its capacity (R29), the
framebuffer is in canonical form and holds nothing outside `FB_SIZE` (R37, R52), `FAULTS` is the union of the recorded
codes and each record is one R186 allows (R186, R193), and a completed transaction is in the trace (R21). -/
structure Inv (s : State) : Prop where
  params : s.params.ok
  queue : s.txq.length ≤ s.cap
  fbForm : s.fb.wf = true
  fbRange : ∀ a, s.params.fbSize ≤ a → s.fb.read a = none
  faultBits : ∀ c, s.faults.has c = true ↔ ∃ r ∈ s.faultLog, r.code = c
  faultRecords : ∀ r ∈ s.faultLog, r.ok = true
  position : s.hpos ≤ s.trace.length

end Sys2Proof.Machine
end

