-- ==== Sys2Proof/Certificates/Slice0/Obligations.lean ====
section
/-! DEFINITION. The statements for the provers, about the machine alone. A docstring names the rule of spec/ it formalises,
and which clauses are the model's own, with their log entries. `exec i s` is the effect of the transaction `i` when the
host issues it in `s`; the host issues none once `REFUSED` is set (R189), which is `step`'s to say. -/

open Sys2Proof Sys2Proof.Machine

/-! ### Reset and the invariant -/

/-- R205: every state element at its reset value, and `THRE = 1`. -/
def Obligations.ResetStateMatchesTable : Prop :=
  State.reset.lcr = 0x00 ∧ State.reset.dlHi = none ∧ State.reset.dlLo = none ∧ State.reset.dlPtr = .high ∧
  State.reset.fcr.fifoEn = false ∧ State.reset.fcr.dmaMode = false ∧ State.reset.fcr.rxTrig = 0#2 ∧
  State.reset.mcr = 0x00 ∧ State.reset.txq = [] ∧ State.reset.thre = true ∧ State.reset.line = [] ∧
  State.reset.crtcIndex = none ∧ State.reset.cursorHi = none ∧ State.reset.cursorLo = none ∧
  (∀ off, State.reset.fb.read off = none) ∧ (∀ c, State.reset.faults.has c = false) ∧
  State.reset.faultLog = [] ∧ State.reset.refused = none

/-- The invariant holds at reset. The parameters there are the model's free values (log 8). -/
def Obligations.ResetMeetsInvariant : Prop := Inv State.reset

/-- Every step, of either agent, keeps the invariant: admitted parameters (R8, log 8), `|TXQ| <= CAP` (R29), the canonical form
and range of the framebuffer (R37, R52), `FAULTS` the union of the recorded codes (R193) with each record one R186 allows,
and `hpos` within the trace (log 4, log 10). -/
def Obligations.StepKeepsInvariant : Prop :=
  ∀ s t : State, Inv s → step s = .next t → Inv t

/-- R30, R33, R188: over a step the serial line, the fault log and the trace only grow, and no fault bit is cleared. The
parameters of R8 stay. Model's own: the trace (log 10), and that no step changes the parameters (log 8). -/
def Obligations.StepOnlyExtendsHistory : Prop :=
  ∀ s t : State, step s = .next t →
    (∃ l, t.line = s.line ++ l) ∧ (∃ l, t.faultLog = s.faultLog ++ l) ∧ (∃ l, t.trace = s.trace ++ l) ∧
    (∀ c, s.faults.has c = true → t.faults.has c = true) ∧ t.params = s.params

/-! ### Encoding and decoding -/

/-- The decode vectors of spec/95_test_vectors.md 2.1. -/
def Obligations.DecodeReadsSpecVectors : Prop :=
  decode 0x2003FB80 = .uartLcrW 0x80 ∧ decode 0x0003FD00 = .uartLsrR ∧
  decode 0x0003FD01 = .malformed 0x0003FD01 ∧ decode 0x8003FB00 = .malformed 0x8003FB00 ∧
  decode 0xC0000000 = .malformed 0xC0000000 ∧ decode 0x2103FB00 = .malformed 0x2103FB00 ∧
  decode 0x20006000 = .ioUndecodedW 0x0060 0x00 ∧ decode 0x0002F800 = .ioUndecodedR 0x02F8 ∧
  decode 0x0003F900 = .uartOff1R ∧ decode 0x2003FF55 = .uartOff7W 0x55 ∧ decode 0x0003D500 = .crtcDataR ∧
  decode 0x5FFFFF00 = .fbByteR 0x1FFFFF ∧ decode 0x7FFFFFFF = .fbByteW 0x1FFFFF 0xFF ∧
  decode 0x40000001 = .malformed 0x40000001 ∧ decode 0x60000000 = .fbByteW 0 0x00

/-- Decode and encode agree on every well-formed instruction, at every operand value. -/
def Obligations.DecodeInvertsEncode : Prop :=
  ∀ i : Instr, WellFormed i = true → decode (encode i) = i

/-- Every word is the encoding of the one well-formed instruction it decodes to (R76: decoding is total). -/
def Obligations.EncodeInvertsDecode : Prop :=
  ∀ w : Word, WellFormed (decode w) = true ∧ encode (decode w) = w

/-- R80, R82: the words of the assembler forms. -/
def Obligations.AssemblerFormsGiveTheirWords : Prop :=
  ∀ (port : Port) (off : FbOffset) (v : Byte),
    outb port v = (0b001#32 <<< 29) ||| (port.setWidth 32 <<< 8) ||| v.setWidth 32 ∧
    inb port = port.setWidth 32 <<< 8 ∧
    fbw off v = (0b011#32 <<< 29) ||| (off.setWidth 32 <<< 8) ||| v.setWidth 32 ∧
    fbr off = (0b010#32 <<< 29) ||| (off.setWidth 32 <<< 8)

/-- R77: the first-match decode over the opcode map equals R76, and the matching row is the decoded instruction's. -/
def Obligations.FirstMatchDecodeEqualsDecode : Prop :=
  ∀ w : Word, decodeByTable w = some (decode w) ∧ (firstMatch w).map (·.number) = some (rowNumber (decode w))

/-- R78: which words are refused, and with which code, in any state. -/
def Obligations.IllegalWordsAreRefused : Prop :=
  ∀ (w : Word) (s : State),
    let sp := w.extractLsb' 30 2
    let isWrite := w.getLsbD 29
    let pad := w.extractLsb' 24 5
    let port := w.extractLsb' 8 16
    let data := w.extractLsb' 0 8
    let isMalformed := sp = 2#2 ∨ sp = 3#2 ∨ (sp = 0#2 ∧ pad ≠ 0#5) ∨ (isWrite = false ∧ data ≠ 0#8)
    (isMalformed → exec (decode w) s = .next { s with refused := some .x1MalformedWord }) ∧
    (¬ isMalformed → sp = 0#2 →
      (port ∉ decodedPorts → exec (decode w) s = .next { s with refused := some .x2UndecodedPort }) ∧
      (port = 0x3F9#16 ∨ port = 0x3FE#16 ∨ port = 0x3FF#16 →
        exec (decode w) s = .next { s with refused := some .x3UartReservedOffset }) ∧
      (port = 0x3F8#16 → isWrite = false →
        exec (decode w) s = .next { s with refused := some .x4UartReceiveRead }) ∧
      (port = 0x3FA#16 → isWrite = false → exec (decode w) s = .next { s with refused := some .x5UartIirRead }) ∧
      (port = 0x3FD#16 → isWrite = true → exec (decode w) s = .next { s with refused := some .x6UartLsrWrite }) ∧
      (port = 0x3D4#16 ∨ port = 0x3D5#16 → isWrite = false →
        exec (decode w) s = .next { s with refused := some .x7CrtcRead }))

/-! ### UART transactions -/

/-- R91: a data write with DLAB = 0 enqueues the byte while `|TXQ| < CAP`, and else drops it with F1. Everything else is
unchanged but the trace (log 10). -/
def Obligations.ThrWriteEnqueuesOrDrops : Prop :=
  ∀ (s : State) (v : Byte), s.lcr.getLsbD 7 = false →
    let word : Word := 0x2003F800 ||| v.setWidth 32
    let cap := if s.fcr.fifoEn = true then s.params.txFifoDepth else 1
    (s.txq.length < cap →
      ∃ t, exec (.uartDataW v) s = .next t ∧ t.thre = false ∧
        t = { s with txq := s.txq ++ [v], trace := s.trace ++ [⟨word, none⟩] }) ∧
    (cap ≤ s.txq.length →
      ∃ t, exec (.uartDataW v) s = .next t ∧ t.thre = s.thre ∧ (s.params.ok → t.thre = false) ∧
        t = { s with
          faults := { s.faults with f1 := true }
          faultLog := s.faultLog ++ [⟨.f1TxOverrun, .word word⟩]
          trace := s.trace ++ [⟨word, none⟩] })

/-- R92: a data write with DLAB = 1 writes the byte of `DL` that `DL_PTR` names and toggles the pointer. Model's own:
the trace (log 10). -/
def Obligations.DivisorWriteFollowsPointer : Prop :=
  ∀ (s : State) (v : Byte), s.lcr.getLsbD 7 = true →
    let word : Word := 0x2003F800 ||| v.setWidth 32
    (s.dlPtr = .high → exec (.uartDataW v) s =
      .next { s with dlHi := some v, dlPtr := .low, trace := s.trace ++ [⟨word, none⟩] }) ∧
    (s.dlPtr = .low → exec (.uartDataW v) s =
      .next { s with dlLo := some v, dlPtr := .high, trace := s.trace ++ [⟨word, none⟩] })

/-- R95: an FCR write clears the queue when the enable changes or TXCLR is set, and retains FIFOE, DMA and TRIG. The
queue stays within the capacity across the change. Model's own: the trace (log 10). -/
def Obligations.FcrWriteClearsAndRetains : Prop :=
  ∀ (s : State) (v : Byte),
    let word : Word := 0x2003FA00 ||| v.setWidth 32
    let retained : FcrState := ⟨v.getLsbD 0, v.getLsbD 3, v.extractLsb' 6 2⟩
    (v.getLsbD 0 ≠ s.fcr.fifoEn ∨ v.getLsbD 2 = true →
      ∃ t, exec (.uartFcrW v) s = .next t ∧ t.thre = true ∧ t.txq.length ≤ t.cap ∧
        t = { s with txq := [], fcr := retained, trace := s.trace ++ [⟨word, none⟩] }) ∧
    (v.getLsbD 0 = s.fcr.fifoEn → v.getLsbD 2 = false →
      ∃ t, exec (.uartFcrW v) s = .next t ∧ (s.txq.length ≤ s.cap → t.txq.length ≤ t.cap) ∧
        t = { s with fcr := retained, trace := s.trace ++ [⟨word, none⟩] })

/-- R97, R98: an LCR write stores all eight bits and sets `DL_PTR` to HIGH; an LCR read returns LCR. Model's own: the
trace (log 10). -/
def Obligations.LcrWriteAndRead : Prop :=
  ∀ (s : State) (v : Byte),
    exec (.uartLcrW v) s = .next { s with
      lcr := v, dlPtr := .high, trace := s.trace ++ [⟨0x2003FB00 ||| v.setWidth 32, none⟩] } ∧
    exec .uartLcrR s = .next { s with trace := s.trace ++ [⟨0x0003FB00, some s.lcr⟩] }

/-- R99, R100: an MCR write stores all eight bits, the outputs follow at once; an MCR read returns MCR. Model's own:
the trace (log 10). -/
def Obligations.McrWriteAndRead : Prop :=
  ∀ (s : State) (v : Byte),
    (∃ t, exec (.uartMcrW v) s = .next t ∧
      t = { s with mcr := v, trace := s.trace ++ [⟨0x2003FC00 ||| v.setWidth 32, none⟩] } ∧
      t.dtrOut = v.getLsbD 0 ∧ t.rtsOut = v.getLsbD 1 ∧ t.out1Out = v.getLsbD 2 ∧ t.out2Out = v.getLsbD 3) ∧
    exec .uartMcrR s = .next { s with trace := s.trace ++ [⟨0x0003FC00, some s.mcr⟩] }

/-- R101, R139: an LSR read returns a draw with bit 5 replaced by `THRE`; masking with `0x20` tells whether the queue
is empty, whatever was drawn. The counter of draws is the model's (log 7). Model's own: the trace (log 10). -/
def Obligations.LsrReadReturnsThre : Prop :=
  ∀ s : State, ∃ r : Byte,
    exec .uartLsrR s = .next { s with
      trace := s.trace ++ [⟨0x0003FD00, some r⟩], draws := s.draws + 1 } ∧
    (r.getLsbD 5 = true ↔ s.txq = []) ∧
    (∀ k, k < 8 → k ≠ 5 → r.getLsbD k = (Config.draw8 s.draws).getLsbD k) ∧
    (readyBit r = true ↔ s.txq = [])

/-- R93, R94, R96, R102, R103: the UART accesses that set a refusal mark, in every state and so in either DLAB state. -/
def Obligations.UnmodelledUartAccessesRefuse : Prop :=
  ∀ (s : State) (v : Byte),
    exec .uartDataR s = .next { s with refused := some .x4UartReceiveRead } ∧
    exec (.uartOff1W v) s = .next { s with refused := some .x3UartReservedOffset } ∧
    exec .uartOff1R s = .next { s with refused := some .x3UartReservedOffset } ∧
    exec .uartOff2R s = .next { s with refused := some .x5UartIirRead } ∧
    exec (.uartLsrW v) s = .next { s with refused := some .x6UartLsrWrite } ∧
    exec (.uartOff6W v) s = .next { s with refused := some .x3UartReservedOffset } ∧
    exec .uartOff6R s = .next { s with refused := some .x3UartReservedOffset } ∧
    exec (.uartOff7W v) s = .next { s with refused := some .x3UartReservedOffset } ∧
    exec .uartOff7R s = .next { s with refused := some .x3UartReservedOffset }

/-- R187: the catch-all rows set X2 and X1. -/
def Obligations.CatchAllRowsRefuse : Prop :=
  ∀ (s : State) (port : Port) (v : Byte) (w : Word),
    exec (.ioUndecodedW port v) s = .next { s with refused := some .x2UndecodedPort } ∧
    exec (.ioUndecodedR port) s = .next { s with refused := some .x2UndecodedPort } ∧
    exec (.malformed w) s = .next { s with refused := some .x1MalformedWord }

/-- R22, R26, R28: the fields of LCR, FCR and MCR stand at their places in every byte, and the source's whole values `0x80`,
`0x03`, `0xC7` and `0x03` have the fields their meanings give. The places of the bits are from general knowledge, as the
spec marks them, but for DLAB (log 16). -/
def Obligations.RegisterFieldsHaveTheirPlaces : Prop :=
  (∀ v : Byte, BitVec.ofBool (lcrDlab v) ++ BitVec.ofBool (lcrBrk v) ++ lcrPar v ++ BitVec.ofBool (lcrStb v) ++ lcrWls v
    = v) ∧
  (∀ v : Byte, lcrFmt v = BitVec.ofBool (lcrBrk v) ++ lcrPar v ++ BitVec.ofBool (lcrStb v) ++ lcrWls v) ∧
  (∀ v : Byte, (fcrRetained v).rxTrig ++ v.extractLsb' 4 2 ++ BitVec.ofBool (fcrRetained v).dmaMode ++
    BitVec.ofBool (fcrTxclr v) ++ v.extractLsb' 1 1 ++ BitVec.ofBool (fcrRetained v).fifoEn = v) ∧
  (∀ v : Byte, v.extractLsb' 5 3 ++ BitVec.ofBool (mcrLoop v) ++ BitVec.ofBool (mcrOut2 v) ++ BitVec.ofBool (mcrOut1 v) ++
    BitVec.ofBool (mcrRts v) ++ BitVec.ofBool (mcrDtr v) = v) ∧
  lcrDlab 0x80 = true ∧ lcrFmt 0x80 = 0 ∧
  lcrDlab 0x03 = false ∧ lcrBrk 0x03 = false ∧ lcrPar 0x03 = 0 ∧ lcrStb 0x03 = false ∧ lcrWls 0x03 = 3 ∧
  fcrRetained 0xC7 = ⟨true, false, 3⟩ ∧ fcrTxclr 0xC7 = true ∧
  mcrDtr 0x03 = true ∧ mcrRts 0x03 = true ∧ mcrOut1 0x03 = false ∧ mcrOut2 0x03 = false ∧ mcrLoop 0x03 = false

/-! ### VGA transactions -/

/-- R155: a command write stores any value as the index, and nothing else. Model's own: the trace (log 10). -/
def Obligations.CrtcIndexWriteStores : Prop :=
  ∀ (s : State) (v : Byte),
    exec (.crtcIndexW v) s = .next { s with
      crtcIndex := some v, trace := s.trace ++ [⟨0x2003D400 ||| v.setWidth 32, none⟩] }

/-- R157, R159: a data write goes to the cursor register the index selects, raises F2 with the index unset, is
refused X8 with any other index, and leaves the index unchanged. Model's own: the trace (log 10). -/
def Obligations.CrtcDataWriteFollowsIndex : Prop :=
  ∀ (s : State) (v : Byte),
    let word : Word := 0x2003D500 ||| v.setWidth 32
    (s.crtcIndex = none → exec (.crtcDataW v) s = .next { s with
      faults := { s.faults with f2 := true }
      faultLog := s.faultLog ++ [⟨.f2CrtcIndexUnset, .word word⟩]
      trace := s.trace ++ [⟨word, none⟩] }) ∧
    (s.crtcIndex = some 14 → exec (.crtcDataW v) s = .next { s with
      cursorHi := some v, trace := s.trace ++ [⟨word, none⟩] }) ∧
    (s.crtcIndex = some 15 → exec (.crtcDataW v) s = .next { s with
      cursorLo := some v, trace := s.trace ++ [⟨word, none⟩] }) ∧
    (∀ k, s.crtcIndex = some k → k ≠ 14 → k ≠ 15 →
      exec (.crtcDataW v) s = .next { s with refused := some .x8CrtcUnmodelledIndex })

/-- R156, R158: a read of either CRTC port is refused X7. -/
def Obligations.CrtcReadsRefuse : Prop :=
  ∀ s : State,
    exec .crtcIndexR s = .next { s with refused := some .x7CrtcRead } ∧
    exec .crtcDataR s = .next { s with refused := some .x7CrtcRead }

/-- R41: the cursor output is the pair of cursor bytes when both are set, and unset otherwise. -/
def Obligations.CursorPosIsThePair : Prop :=
  ∀ s : State,
    (∀ h l : Byte, s.cursorHi = some h → s.cursorLo = some l →
      ∃ p : BitVec 16, s.cursorPos = some p ∧ p.extractLsb' 8 8 = h ∧ p.extractLsb' 0 8 = l ∧
        p.toNat = h.toNat * 256 + l.toNat) ∧
    (s.cursorHi = none ∨ s.cursorLo = none → s.cursorPos = none)

/-- R170: a framebuffer write below `FB_SIZE` stores the byte at its offset and leaves every other byte and all other
state; one at or above `FB_SIZE` raises F3 and stores nothing. Model's own: the trace (log 10). -/
def Obligations.FbWriteStoresOrFaults : Prop :=
  ∀ (s : State) (off : FbOffset) (v : Byte),
    let word : Word := 0x60000000 ||| (off.setWidth 32 <<< 8) ||| v.setWidth 32
    (off.toNat < s.params.fbSize →
      ∃ t, exec (.fbByteW off v) s = .next t ∧
        t = { s with fb := t.fb, trace := s.trace ++ [⟨word, none⟩] } ∧
        t.fb.read off.toNat = some v ∧ (∀ a, a ≠ off.toNat → t.fb.read a = s.fb.read a)) ∧
    (s.params.fbSize ≤ off.toNat → exec (.fbByteW off v) s = .next { s with
      faults := { s.faults with f3 := true }
      faultLog := s.faultLog ++ [⟨.f3FbOutOfRange, .word word⟩]
      trace := s.trace ++ [⟨word, none⟩] })

/-- R171: a framebuffer read returns the stored byte; at or above `FB_SIZE` it raises F3 only, at an unset byte F4,
and returns a draw in both cases (the counter of draws is the model's, log 7). No read changes the framebuffer.
Model's own: the trace (log 10). -/
def Obligations.FbReadReturnsOrFaults : Prop :=
  ∀ (s : State) (off : FbOffset),
    let word : Word := 0x40000000 ||| (off.setWidth 32 <<< 8)
    (s.params.fbSize ≤ off.toNat → exec (.fbByteR off) s = .next { s with
      faults := { s.faults with f3 := true }
      faultLog := s.faultLog ++ [⟨.f3FbOutOfRange, .word word⟩]
      draws := s.draws + 1
      trace := s.trace ++ [⟨word, some (Config.draw8 s.draws)⟩] }) ∧
    (off.toNat < s.params.fbSize → s.fb.read off.toNat = none → exec (.fbByteR off) s = .next { s with
      faults := { s.faults with f4 := true }
      faultLog := s.faultLog ++ [⟨.f4FbUnwritten, .word word⟩]
      draws := s.draws + 1
      trace := s.trace ++ [⟨word, some (Config.draw8 s.draws)⟩] }) ∧
    (∀ v, off.toNat < s.params.fbSize → s.fb.read off.toNat = some v →
      exec (.fbByteR off) s = .next { s with trace := s.trace ++ [⟨word, some v⟩] })

/-- R61 (e): a read returns the last byte written to its offset, whatever other transactions came between. Model's
own: the trace (log 10). -/
def Obligations.FbReadReturnsLastWrite : Prop :=
  ∀ (s t : State) (off : FbOffset) (v : Byte) (ws : List Word),
    off.toNat < s.params.fbSize → (∀ w ∈ ws, ∀ u, decode w ≠ .fbByteW off u) →
    execWords (fbw off v :: ws) s = .next t →
    exec (.fbByteR off) t = .next { t with trace := t.trace ++ [⟨fbr off, some v⟩] }

/-! ### Frames over all transactions -/

/-- R177: a UART transaction leaves the display interface, the serial line and every framebuffer byte as they were; a
VGA transaction leaves the whole UART as it was, and every framebuffer byte unless it is a framebuffer write; no
transaction touches the parameters, the host's remaining program or the interleaving. Model's own: that the parameters
stay (log 8), the host's program and position (log 4, log 11), and the turns and their counter (log 5). -/
def Obligations.TransactionsKeepTheOtherPart : Prop :=
  ∀ (i : Instr) (s t : State), exec i s = .next t →
    SameHost s t ∧ t.line = s.line ∧
    (isUart i = true → SameVga s t ∧ ∀ a, t.fb.read a = s.fb.read a) ∧
    (isVga i = true → SameUart s t ∧ (rowNumber i ≠ 21 → ∀ a, t.fb.read a = s.fb.read a)) ∧
    (isUart i = false → isVga i = false → SameUart s t ∧ SameVga s t)

/-- Each register changes only at the transactions whose rules write it (R90 to R99, R155, R157, R170), and to the value they
give: LCR, MCR, the divisor latch, `DL_PTR`, `FCR_STATE`, `TXQ`, the index, the cursor registers and the framebuffer. -/
def Obligations.RegistersChangeOnlyByTheirWrites : Prop :=
  ∀ (i : Instr) (s t : State), exec i s = .next t →
    (t.lcr ≠ s.lcr → i = .uartLcrW t.lcr) ∧
    (t.mcr ≠ s.mcr → i = .uartMcrW t.mcr) ∧
    (t.dlHi ≠ s.dlHi → ∃ v, i = .uartDataW v ∧ s.lcr.getLsbD 7 = true ∧ s.dlPtr = .high ∧ t.dlHi = some v) ∧
    (t.dlLo ≠ s.dlLo → ∃ v, i = .uartDataW v ∧ s.lcr.getLsbD 7 = true ∧ s.dlPtr = .low ∧ t.dlLo = some v) ∧
    (t.dlPtr ≠ s.dlPtr → (∃ v, i = .uartLcrW v ∧ t.dlPtr = .high) ∨
      ∃ v, i = .uartDataW v ∧ s.lcr.getLsbD 7 = true ∧ t.dlPtr = (if s.dlPtr = .high then .low else .high)) ∧
    (t.fcr ≠ s.fcr → ∃ v, i = .uartFcrW v ∧ t.fcr = ⟨v.getLsbD 0, v.getLsbD 3, v.extractLsb' 6 2⟩) ∧
    (t.txq ≠ s.txq →
      (∃ v, i = .uartFcrW v ∧ (v.getLsbD 0 ≠ s.fcr.fifoEn ∨ v.getLsbD 2 = true) ∧ t.txq = []) ∨
      ∃ v, i = .uartDataW v ∧ s.lcr.getLsbD 7 = false ∧ s.txq.length < s.cap ∧ t.txq = s.txq ++ [v]) ∧
    (t.crtcIndex ≠ s.crtcIndex → ∃ v, i = .crtcIndexW v ∧ t.crtcIndex = some v) ∧
    (t.cursorHi ≠ s.cursorHi → ∃ v, i = .crtcDataW v ∧ s.crtcIndex = some 14 ∧ t.cursorHi = some v) ∧
    (t.cursorLo ≠ s.cursorLo → ∃ v, i = .crtcDataW v ∧ s.crtcIndex = some 15 ∧ t.cursorLo = some v) ∧
    (∀ a, t.fb.read a ≠ s.fb.read a →
      ∃ off v, i = .fbByteW off v ∧ a = off.toNat ∧ a < s.params.fbSize ∧ t.fb.read a = some v)

/-- R177: what a VGA transaction does to the display interface and what it returns do not depend on the UART, and
what a UART transaction does to the UART and returns does not depend on the display interface. Model's own: the trace
(log 10), the counter of draws (log 7). -/
def Obligations.PartsDoNotInfluenceEachOther : Prop :=
  ∀ (i : Instr) (s s' t t' : State), s.params = s'.params → s.draws = s'.draws →
    exec i s = .next t → exec i s' = .next t' → s.trace = s'.trace →
    (isVga i = true → SameVga s s' → SameOutcomes s s' → SameVga t t' ∧ SameOutcomes t t' ∧ t.trace = t'.trace) ∧
    (isUart i = true → SameUart s s' → SameOutcomes s s' → SameUart t t' ∧ SameOutcomes t t' ∧ t.trace = t'.trace)

/-- R190: one transaction raises at most one fault or one refusal, and a fault sets exactly the bit it records. -/
def Obligations.AtMostOneFaultOrRefusal : Prop :=
  ∀ (i : Instr) (s t : State), exec i s = .next t →
    (t.refused = s.refused ∧ t.faultLog = s.faultLog ∧ t.faults = s.faults) ∨
    (t.refused = s.refused ∧ ∃ r, t.faultLog = s.faultLog ++ [r] ∧ r.info = .word (encode i) ∧
      ∀ c, t.faults.has c = true ↔ s.faults.has c = true ∨ c = r.code) ∨
    (∃ x, t = { s with refused := some x })

/-- R189: after a refusal no step is taken; a refused transaction or transmitter step changes nothing but `REFUSED`; and a
refused state is no acceptable end of either form (R226). The outcome `step` gives then is the model's own (log 3). -/
def Obligations.RefusalStopsEveryAgent : Prop :=
  (∀ (s : State) (x : RefusalCode), s.refused = some x → step s = .refused (.halted x) ∧
    ¬ GoodEnd s ∧ ∀ r, ¬ GoodEndAtLast r s) ∧
  (∀ (i : Instr) (s t : State), s.refused = none → exec i s = .next t → t.refused ≠ none →
    t = { s with refused := t.refused }) ∧
  (∀ s : State, s.refused = none → s.txStep.refused ≠ none → s.txStep = { s with refused := s.txStep.refused })

/-! ### The transmitter -/

/-- R122: an enabled, unblocked transmitter step moves the head of `TXQ` to `LINE` with the `LCR[6:0]` and `DL`
current at the step, and changes nothing else; `THRE` becomes 1 when it empties the queue. Model's own: the places of
BRK and LOOP (log 16, the spec's own general knowledge). -/
def Obligations.TxStepMovesTheHead : Prop :=
  ∀ (s : State) (v : Byte) (rest : List Byte) (h l : Byte),
    s.refused = none → s.txq = v :: rest → s.mcr.getLsbD 4 = false → s.lcr.getLsbD 6 = false →
    s.dlHi = some h → s.dlLo = some l → ¬ (h = 0 ∧ l = 0) →
    s.txStep = { s with txq := rest, line := s.line ++ [⟨v, s.lcr.extractLsb' 0 7, h ++ l⟩] } ∧
    (s.txStep.thre = true ↔ rest = [])

/-- R122, R123, R190: a transmitter step is refused X9 under loopback, else X10 under break, else X11 with the
divisor unset or zero; and only with the queue non-empty. Model's own: the places of BRK and LOOP (log 16, the spec's
own general knowledge), and that `txStep` leaves the state with the queue empty, which no step asks (log 17). -/
def Obligations.TxStepRefusalsInOrder : Prop :=
  ∀ s : State, s.refused = none →
    (s.txq = [] → s.txEnabled = false ∧ s.txStep = s) ∧
    (s.txq ≠ [] → s.mcr.getLsbD 4 = true → s.txStep = { s with refused := some .x9TxLoopback }) ∧
    (s.txq ≠ [] → s.mcr.getLsbD 4 = false → s.lcr.getLsbD 6 = true →
      s.txStep = { s with refused := some .x10TxBreak }) ∧
    (s.txq ≠ [] → s.mcr.getLsbD 4 = false → s.lcr.getLsbD 6 = false →
      (s.dlHi = none ∨ s.dlLo = none ∨ (s.dlHi = some 0 ∧ s.dlLo = some 0)) →
      s.txStep = { s with refused := some .x11TxDivisor })

/-- R31: the baud is `115200 / DL`, exact, and has no value when `DL` is unset or zero. -/
def Obligations.BaudIsExactQuotient : Prop :=
  ∀ s : State,
    (∀ h l : Byte, s.dlHi = some h → s.dlLo = some l → ¬ (h = 0 ∧ l = 0) →
      ∃ b : Rat, s.baud = some b ∧ b * ((h.toNat * 256 + l.toNat : Nat) : Rat) = 115200) ∧
    (s.dlHi = none ∨ s.dlLo = none ∨ (s.dlHi = some 0 ∧ s.dlLo = some 0) → s.baud = none)

/-! ### Steps -/

/-- A step runs the decoded transaction: with the host next, `step` is `exec` of the decoded word, after which the host
has moved past it unless it was refused (R21, R60, R189; log 4, log 5, log 11). -/
def Obligations.StepRunsDecodedTransaction : Prop :=
  ∀ (s : State) (w : Word) (rest : List HostOp), s.refused = none → s.pending = .transaction w :: rest →
    (s.txq = [] → ∃ t, exec (decode w) s = .next t ∧
      step s = .next (if t.refused = none then { t with pending := rest, hpos := t.hpos + 1 } else t)) ∧
    (∀ ts, s.txq ≠ [] → s.turns = .host :: ts → ∃ t, exec (decode w) { s with turns := ts } = .next t ∧
      step s = .next (if t.refused = none then { t with pending := rest, hpos := t.hpos + 1 } else t))

/-- A placed word is the next transaction run (the model's `withFetchWord`, log 4). -/
def Obligations.StepRunsPlacedWord : Prop :=
  ∀ (s : State) (w : Nat), s.refused = none →
    ∃ t, exec (decode (BitVec.ofNat 32 w)) { s with pending := (s.withFetchWord 32 w).pending } = .next t ∧
      step (s.withFetchWord 32 w) =
        .next (if t.refused = none then { t with pending := s.pending.tail, hpos := t.hpos + 1 } else t)

/-- R60, R125, R191: when both agents can step, either may: each is the next step of some interleaving that agrees
with the state in everything else. Model's own: the host's program and position (log 4, log 11), the listed turns
(log 5). -/
def Obligations.EitherAgentMayStepNext : Prop :=
  ∀ (s : State) (ts : List Agent) (w : Word) (rest : List HostOp), s.refused = none → s.txq ≠ [] →
    s.pending = .transaction w :: rest →
    step { s with turns := .transmitter :: ts } = .next { s with turns := ts }.txStep ∧
    ∃ t, exec (decode w) { s with turns := ts } = .next t ∧
      step { s with turns := .host :: ts } =
        .next (if t.refused = none then { t with pending := rest, hpos := t.hpos + 1 } else t)

/-- R21, R140: the polling loop issues one line-status read; the host moves past it exactly when the queue was empty.
Model's own: the trace (log 10), the counter of draws (log 7), the host's program and position (log 4, log 11), the
listed turns (log 5). -/
def Obligations.PollAdvancesOnlyWhenEmpty : Prop :=
  ∀ (s : State) (rest : List HostOp), s.refused = none → s.pending = .pollTxReady :: rest →
    (s.txq = [] → ∃ r, r.getLsbD 5 = true ∧ step s = .next { s with
      trace := s.trace ++ [⟨0x0003FD00, some r⟩], draws := s.draws + 1, pending := rest, hpos := s.hpos + 1 }) ∧
    (∀ ts, s.txq ≠ [] → s.turns = .host :: ts → ∃ r, r.getLsbD 5 = false ∧ step s = .next { s with
      trace := s.trace ++ [⟨0x0003FD00, some r⟩], draws := s.draws + 1, turns := ts })

/-- R172, R174: `WRITE_CELL` at an odd offset raises F5 and issues no transaction; at an even one it is its two
writes. Model's own: the host's program and position (log 4, log 11). -/
def Obligations.OddCellFaultsAndWritesNothing : Prop :=
  ∀ (s : State) (off : FbOffset) (c fg bg : Byte),
    (∀ rest, off.toNat % 2 = 1 → s.pending = writeCell off c fg bg ++ rest →
      s.hostStep = .next { s with
        faults := { s.faults with f5 := true }
        faultLog := s.faultLog ++ [⟨.f5CellMisaligned, .offset off⟩]
        pending := rest }) ∧
    (off.toNat % 2 = 0 → ∃ off' : FbOffset, off'.toNat = off.toNat + 1 ∧
      writeCell off c fg bg = [.transaction (0x60000000 ||| (off.setWidth 32 <<< 8) ||| c.setWidth 32),
        .transaction (0x60000000 ||| (off'.setWidth 32 <<< 8) ||| (packAttr fg bg).setWidth 32)])

/-- R226, R227: a run stops by ending exactly when the host has nothing left and the queue is drained (the model's
own outcome, log 3). Model's own: the host's program and position (log 4, log 11). -/
def Obligations.RunEndsExactlyWhenDrained : Prop :=
  ∀ s : State, s.refused = none → (step s = .fault .runEnded ↔ s.pending = [] ∧ s.txq = [])

/-- R127: over a step `THRE` goes from 1 to 0 only at an accepted data write, and from 0 to 1 only at a transmitter
step that removes the last byte or an FCR write that clears the queue. Model's own: the host's program and position
(log 4, log 11). -/
def Obligations.ThreChangesOnlyAsListed : Prop :=
  ∀ s t : State, step s = .next t →
    (s.thre = true → t.thre = false → ∃ w v rest, s.pending = .transaction w :: rest ∧ decode w = .uartDataW v ∧
      s.lcr.getLsbD 7 = false ∧ t.txq = [v]) ∧
    (s.thre = false → t.thre = true →
      (∃ b e, s.txq = [b] ∧ t.line = s.line ++ [e] ∧ e.v = b) ∨
      (∃ w v rest, s.pending = .transaction w :: rest ∧ decode w = .uartFcrW v ∧ t.line = s.line ∧
        (v.getLsbD 0 ≠ s.fcr.fifoEn ∨ v.getLsbD 2 = true)))

/-- R61 (d): bytes reach the line in the order they entered. Over a step, the bytes sent followed by those waiting
are the same as before, or gain one data byte at the end, or the waiting ones are discarded by an FCR write. Model's
own: the host's program and position (log 4, log 11). -/
def Obligations.BytesLeaveInOrder : Prop :=
  ∀ s t : State, step s = .next t →
    t.line.map (·.v) ++ t.txq = s.line.map (·.v) ++ s.txq ∨
    (∃ w v rest, s.pending = .transaction w :: rest ∧ decode w = .uartDataW v ∧
      t.line = s.line ∧ t.txq = s.txq ++ [v]) ∨
    (∃ w v rest, s.pending = .transaction w :: rest ∧ decode w = .uartFcrW v ∧ t.line = s.line ∧ t.txq = [])

/-- R61 (c): a data write that follows a poll is never dropped. Model's own: the host's program and position (log 4,
log 11). -/
def Obligations.WriteAfterReadyPollIsAccepted : Prop :=
  ∀ (s t : State) (v : Byte) (rest : List HostOp), s.params.ok → s.lcr.getLsbD 7 = false →
    s.pending = .pollTxReady :: .transaction (outb 0x3F8 v) :: rest →
    step s = .next t → t.pending = .transaction (outb 0x3F8 v) :: rest →
    ∃ u, step t = .next u ∧ u.txq = [v] ∧ u.faults = s.faults ∧ u.faultLog = s.faultLog ∧
      u.refused = none ∧ u.pending = rest

/-! ### Sequences -/

/-- R135, R136, R137: the six transactions of `CONFIGURE d`, issued one after the other from any state, all complete
and leave `Configured(d)` with an empty queue, no fault added, and nothing else changed. Model's own: the trace (log
10). -/
def Obligations.ConfigureSequenceConfigures : Prop :=
  ∀ (s : State) (d : BitVec 16),
    let ws : List Word := [0x2003FB80, 0x2003F800 ||| (d.extractLsb' 8 8).setWidth 32,
      0x2003F800 ||| (d.extractLsb' 0 8).setWidth 32, 0x2003FB03, 0x2003FAC7, 0x2003FC03]
    configure d = ws.map .transaction ∧
    ∃ t, execWords ws s = .next t ∧ Configured d t ∧
      t = { s with
        lcr := 0x03, dlHi := some (d.extractLsb' 8 8), dlLo := some (d.extractLsb' 0 8), dlPtr := .high
        fcr := ⟨true, false, 3#2⟩, mcr := 0x03, txq := [], trace := s.trace ++ ws.map (⟨·, none⟩) }

/-- R136: whatever transmitter steps fall between the six, a run of `CONFIGURE d` that comes to its last transaction
leaves `Configured(d)`, an empty queue and no fault added. Model's own: the host's program and position (log 4, log
11). -/
def Obligations.ConfigureUnderEveryInterleaving : Prop :=
  ∀ (s t : State) (d : BitVec 16) (k : Nat), s.refused = none → s.pending = configure d →
    run k s = .next t → t.pending = [] →
    Configured d t ∧ t.dlPtr = .high ∧ t.fcr.dmaMode = false ∧ t.txq = [] ∧ t.faults = s.faults ∧
      t.faultLog = s.faultLog ∧ t.refused = none ∧ t.hpos = s.hpos + 6

/-- R142 (a), (b), (c), (e): in every run of `WRITE buf` from a configured UART, whatever the interleaving and the
fairness, no byte is dropped, nothing is refused, and the line has gained a prefix of the buffer in order. Model's
own: the host's program and position (log 4, log 11). -/
def Obligations.WriteNeverDropsAByte : Prop :=
  ∀ (s t : State) (d : BitVec 16) (buf : List Byte) (k : Nat), s.params.ok → s.refused = none →
    ConfiguredFor d s → s.pending = writeBytes buf → run k s = .next t →
    t.faults = s.faults ∧ t.faultLog = s.faultLog ∧ t.refused = none ∧
      ∃ m, m ≤ buf.length ∧ t.line = s.line ++ (buf.take m).map (⟨·, 0x03, d⟩)

/-- R142 (d): under `TX_FAIR = true` a run of `WRITE buf` from a configured UART comes to its end, with exactly the
events of the buffer added to the line in order and no fault. Fairness is built into the interleaving (log 6).
Model's own: the host's program and position (log 4, log 11). -/
def Obligations.FairWriteDeliversTheBuffer : Prop :=
  ∀ (s : State) (d : BitVec 16) (buf : List Byte), s.params.ok → s.refused = none → Fair s →
    ConfiguredFor d s → s.pending = writeBytes buf →
    ∃ k t, run k s = .next t ∧ EndOfRun t ∧ ConfiguredFor d t ∧ t.refused = none ∧ t.faults = s.faults ∧
      t.faultLog = s.faultLog ∧ t.line = s.line ++ buf.map (⟨·, 0x03, d⟩) ∧
      t.hpos = s.hpos + 2 * buf.length

/-- R144 (a), (c): with no transmitter step between, data writes fill the queue up to its capacity and drop the rest, each
drop with its own F1 record. -/
def Obligations.UnpolledBurstDropsTheExcess : Prop :=
  ∀ (s : State) (buf : List Byte), s.lcr.getLsbD 7 = false → s.txq = [] →
    ∃ t, execWords (buf.map (outb 0x3F8 ·)) s = .next t ∧ t.txq = buf.take s.cap ∧ t.line = s.line ∧
      t.refused = s.refused ∧
      t.faultLog = s.faultLog ++ (buf.drop s.cap).map
        (fun b => ⟨.f1TxOverrun, .word (0x2003F800 ||| b.setWidth 32)⟩)

/-- R160, R161: `MOVE_CURSOR pos` from any state leaves `CURSOR_POS = pos` and changes nothing but the index and the
cursor; after its second transaction the position pairs the new high byte with the old low byte. Model's own: the
trace (log 10). -/
def Obligations.MoveCursorSetsPosition : Prop :=
  ∀ (s : State) (pos : BitVec 16),
    let first : List Word := [0x2003D40E, 0x2003D500 ||| (pos.extractLsb' 8 8).setWidth 32]
    let second : List Word := [0x2003D40F, 0x2003D500 ||| (pos.extractLsb' 0 8).setWidth 32]
    moveCursor pos = (first ++ second).map .transaction ∧
    (∃ m, execWords first s = .next m ∧
      m.cursorPos = s.cursorLo.map (fun l => pos.extractLsb' 8 8 ++ l)) ∧
    ∃ t, execWords (first ++ second) s = .next t ∧ t.cursorPos = some pos ∧
      t = { s with
        crtcIndex := some 15, cursorHi := some (pos.extractLsb' 8 8), cursorLo := some (pos.extractLsb' 0 8)
        trace := s.trace ++ (first ++ second).map (⟨·, none⟩) }

/-- R162: the reversed order ends in the same position with index 14; its transient pairs the old high byte with the new
low byte. -/
def Obligations.ReversedCursorOrderSamePosition : Prop :=
  ∀ (s : State) (pos : BitVec 16),
    let first : List Word := [0x2003D40F, 0x2003D500 ||| (pos.extractLsb' 0 8).setWidth 32]
    let second : List Word := [0x2003D40E, 0x2003D500 ||| (pos.extractLsb' 8 8).setWidth 32]
    moveCursorReversedWords pos = first ++ second ∧
    (∃ m, execWords first s = .next m ∧
      m.cursorPos = s.cursorHi.map (fun h => h ++ pos.extractLsb' 0 8)) ∧
    ∃ t, execWords (first ++ second) s = .next t ∧ t.cursorPos = some pos ∧ t.crtcIndex = some 14 ∧
      t.faults = s.faults ∧ t.refused = s.refused

/-- R173: the attribute's high nibble is the low nibble of the foreground and its low nibble that of the background. -/
def Obligations.AttributePacksNibbles : Prop :=
  ∀ fg bg : Byte,
    (packAttr fg bg).extractLsb' 4 4 = fg.extractLsb' 0 4 ∧ (packAttr fg bg).extractLsb' 0 4 = bg.extractLsb' 0 4 ∧
    attrFg (packAttr fg bg) = fg.extractLsb' 0 4 ∧ attrBg (packAttr fg bg) = bg.extractLsb' 0 4 ∧
    packAttr fg bg = ((fg &&& 0x0F#8) <<< 4) ||| (bg &&& 0x0F#8)

/-- R172, R175: `WRITE_CELL` then `READ_CELL` at an even offset inside the framebuffer return the character and the
low nibbles of the colours, with no fault, from any state. Model's own: the trace (log 10). -/
def Obligations.CellRoundTrip : Prop :=
  ∀ (s : State) (off off' : FbOffset) (c fg bg : Byte), s.params.ok → off.toNat % 2 = 0 →
    off.toNat < s.params.fbSize → off'.toNat = off.toNat + 1 →
    ∃ t a, execWords [fbw off c, fbw off' a, fbr off, fbr off'] s = .next t ∧
      writeCell off c fg bg ++ readCell off = [fbw off c, fbw off' a, fbr off, fbr off'].map .transaction ∧
      t = { s with fb := t.fb, trace := s.trace ++
        [⟨fbw off c, none⟩, ⟨fbw off' a, none⟩, ⟨fbr off, some c⟩, ⟨fbr off', some a⟩] } ∧
      attrFg a = fg.extractLsb' 0 4 ∧ attrBg a = bg.extractLsb' 0 4 ∧
      t.fb.read off.toNat = some c ∧ t.fb.read off'.toNat = some a ∧
      ∀ x, x ≠ off.toNat → x ≠ off'.toNat → t.fb.read x = s.fb.read x

/-- R174: `WRITE_CELL` at an even offset at or above `FB_SIZE` issues both writes, and each raises F3 and stores
nothing. Model's own: the trace (log 10). -/
def Obligations.CellPastTheEndFaultsTwice : Prop :=
  ∀ (s : State) (off off' : FbOffset) (c fg bg : Byte), off.toNat % 2 = 0 → s.params.fbSize ≤ off.toNat →
    off'.toNat = off.toNat + 1 →
    ∃ w w' : Word, writeCell off c fg bg = [.transaction w, .transaction w'] ∧
      execWords [w, w'] s = .next { s with
        faults := { s.faults with f3 := true }
        faultLog := s.faultLog ++ [⟨.f3FbOutOfRange, .word w⟩, ⟨.f3FbOutOfRange, .word w'⟩]
        trace := s.trace ++ [⟨w, none⟩, ⟨w', none⟩] }

/-! ### Progress -/

/-- R227: with no further host transaction and no blocking configuration, under `TX_FAIR = true`, the queue drains in
`|TXQ|` steps, and every waiting byte reaches the line in order. Model's own: the host's program and position (log 4,
log 11), the places of BRK and LOOP (log 16, the spec's own general knowledge). -/
def Obligations.FairQueueDrains : Prop :=
  ∀ (s : State) (d : BitVec 16), Fair s → s.refused = none → s.pending = [] →
    s.mcr.getLsbD 4 = false → s.lcr.getLsbD 6 = false → s.dl = some d → d ≠ 0 →
    run s.txq.length s = .next { s with
      txq := [], line := s.line ++ s.txq.map (⟨·, s.lcr.extractLsb' 0 7, d⟩) }

/-- R124: under `TX_FAIR = true` a transmitter that stays enabled is not passed over for ever: within finitely many steps
it is the one to move, unless `TxEnabled` has ceased. How the interleaving is drawn is the model's own (log 5, log 6). -/
def Obligations.FairTransmitterMoves : Prop :=
  ∀ s : State, Fair s → s.txEnabled = true →
    ∃ k t, run k s = .next t ∧ (t.txEnabled = true → t.nextMove.1 = .transmitter)

/-- R140, R226: under `TX_FAIR = true` no run goes on for ever, whatever the host's program: it ends drained, or it is
refused. The two outcomes of `step`, and how the interleaving is drawn, are the model's own (log 3, log 6). -/
def Obligations.FairRunsStop : Prop :=
  ∀ s : State, Fair s → ∃ k, run k s = .fault .runEnded ∨ ∃ x, run k s = .refused (.halted x)

/-- R124, R140: under `TX_FAIR = false` the transmitter may go without a step for any number of steps, while the host
spins in its polling loop and after the host is done. Model's own: how turns are drawn (log 5, log 6), the trace (log 10)
and the host's program and position (log 4, log 11). -/
def Obligations.UnfairTransmitterMayStall : Prop :=
  ∀ (s : State) (n : Nat), s.refused = none → s.txq ≠ [] → s.params.txFair = false →
    s.turns = List.replicate n .host →
    (s.pending = [] → ∃ t, run n s = .next t ∧ t.txq = s.txq ∧ t.line = s.line ∧ t.pending = []) ∧
    (∀ rest, s.pending = .pollTxReady :: rest →
      ∃ t, run n s = .next t ∧ t.txq = s.txq ∧ t.line = s.line ∧ t.pending = s.pending ∧ t.hpos = s.hpos ∧
        t.trace.length = s.trace.length + n)

/-- R208: before both bytes of the divisor are set, a byte written with DLAB clear to an empty queue waits there, and the
first transmitter step on it is refused X11, with BRK and LOOP clear. The reset state is such a state. Model's own: the
host's program and position (log 4, log 11), the places of BRK and LOOP (log 16). -/
def Obligations.TransmitBeforeConfigureIsRefused : Prop :=
  (∀ s : State, AtReset s →
    s.refused = none ∧ s.lcr.getLsbD 7 = false ∧ s.lcr.getLsbD 6 = false ∧ s.mcr.getLsbD 4 = false ∧ s.txq = [] ∧
      1 ≤ s.cap ∧ s.dlHi = none ∧ s.dlLo = none) ∧
  ∀ (s : State) (v : Byte) (rest : List HostOp),
    s.refused = none → s.lcr.getLsbD 7 = false → s.lcr.getLsbD 6 = false → s.mcr.getLsbD 4 = false → s.txq = [] →
    1 ≤ s.cap → (s.dlHi = none ∨ s.dlLo = none) → s.pending = .transaction (outb 0x3F8 v) :: rest →
    ∃ t, step s = .next t ∧ t.txq = [v] ∧ t.line = s.line ∧ t.faults = s.faults ∧ t.faultLog = s.faultLog ∧
      t.refused = none ∧ t.pending = rest ∧ t.txStep = { t with refused := some .x11TxDivisor }

/-- R142, R223, R226 (b): at the host's last transaction of `WRITE` from a configured UART, whatever the interleaving and the
fairness, the last byte is in the queue and the line has gained exactly the events of the others; of the observation only
the trace, the line and `THRE` differ from the start. Model's own: what the observation holds (log 18), the trace (log 10)
and the host's program and position (log 4, log 11). -/
def Obligations.WriteEndsWithItsLastByteQueued : Prop :=
  ∀ (s u t : State) (d : BitVec 16) (buf : List Byte) (b : Byte) (k : Nat), s.params.ok → s.refused = none →
    ConfiguredFor d s → s.pending = writeBytes (buf ++ [b]) → run k s = .next u → IssuesLast u t →
    t.txq = [b] ∧ t.observe = { s.observe with
      trace := t.trace, line := s.line ++ buf.map (⟨·, 0x03, d⟩), thre := false } ∧
      (NoFault s → GoodEndAtLast u t)
end

