-- ==== Sys2Proof/Laws/Decode.lean ====
section
/-! SUPPORT. The fields of the words the encoder builds: every field reads back what was put in. -/

namespace Sys2Proof

theorem ioWord_toNat (wr : Bool) (port : Port) (data : Byte) :
    (ioWord wr port data).toNat = wr.toNat * 2 ^ 29 + port.toNat * 2 ^ 8 + data.toNat := by
  unfold ioWord
  simp only [BitVec.toNat_append]
  have h1 := port.isLt
  have h2 := data.isLt
  rw [← Nat.shiftLeft_add_eq_or_of_lt h2, ← Nat.shiftLeft_add_eq_or_of_lt h1]
  cases wr <;> simp [Nat.shiftLeft_eq] <;> omega

theorem fbWord_toNat (wr : Bool) (off : FbOffset) (data : Byte) :
    (fbWord wr off data).toNat = 2 ^ 30 + wr.toNat * 2 ^ 29 + off.toNat * 2 ^ 8 + data.toNat := by
  unfold fbWord
  simp only [BitVec.toNat_append]
  have h1 := off.isLt
  have h2 := data.isLt
  rw [← Nat.shiftLeft_add_eq_or_of_lt h2, ← Nat.shiftLeft_add_eq_or_of_lt h1]
  cases wr <;> simp [Nat.shiftLeft_eq] <;> omega

/-- A field of a word, as a quotient and a remainder. -/
theorem field_toNat (w : Word) (lo n : Nat) : (w.extractLsb' lo n).toNat = w.toNat / 2 ^ lo % 2 ^ n := by
  simp [Nat.shiftRight_eq_div_pow]

/-- Bit 29 of a word. -/
theorem wordIsWrite_eq (w : Word) : wordIsWrite w = decide (w.toNat / 2 ^ 29 % 2 = 1) := by
  simp [wordIsWrite, BitVec.getLsbD, Nat.testBit_eq_decide_div_mod_eq]

section
variable (wr : Bool) (port : Port) (off : FbOffset) (data : Byte)

@[simp] theorem wordSp_ioWord : wordSp (ioWord wr port data) = 0 := by
  apply BitVec.eq_of_toNat_eq
  rw [wordSp, field_toNat, ioWord_toNat]
  have := port.isLt; have := data.isLt; cases wr <;> simp <;> omega

@[simp] theorem wordIsWrite_ioWord : wordIsWrite (ioWord wr port data) = wr := by
  rw [wordIsWrite_eq, ioWord_toNat]
  have := port.isLt; have := data.isLt; cases wr <;> simp <;> omega

@[simp] theorem wordPad_ioWord : wordPad (ioWord wr port data) = 0 := by
  apply BitVec.eq_of_toNat_eq
  rw [wordPad, field_toNat, ioWord_toNat]
  have := port.isLt; have := data.isLt; cases wr <;> simp <;> omega

@[simp] theorem wordPort_ioWord : wordPort (ioWord wr port data) = port := by
  apply BitVec.eq_of_toNat_eq
  rw [wordPort, field_toNat, ioWord_toNat]
  have := port.isLt; have := data.isLt; cases wr <;> simp <;> omega

@[simp] theorem wordData_ioWord : wordData (ioWord wr port data) = data := by
  apply BitVec.eq_of_toNat_eq
  rw [wordData, field_toNat, ioWord_toNat]
  have := port.isLt; have := data.isLt; cases wr <;> simp <;> omega

@[simp] theorem wordSp_fbWord : wordSp (fbWord wr off data) = 1 := by
  apply BitVec.eq_of_toNat_eq
  rw [wordSp, field_toNat, fbWord_toNat]
  have := off.isLt; have := data.isLt; cases wr <;> simp <;> omega

@[simp] theorem wordIsWrite_fbWord : wordIsWrite (fbWord wr off data) = wr := by
  rw [wordIsWrite_eq, fbWord_toNat]
  have := off.isLt; have := data.isLt; cases wr <;> simp <;> omega

@[simp] theorem wordOff_fbWord : wordOff (fbWord wr off data) = off := by
  apply BitVec.eq_of_toNat_eq
  rw [wordOff, field_toNat, fbWord_toNat]
  have := off.isLt; have := data.isLt; cases wr <;> simp <;> omega

@[simp] theorem wordData_fbWord : wordData (fbWord wr off data) = data := by
  apply BitVec.eq_of_toNat_eq
  rw [wordData, field_toNat, fbWord_toNat]
  have := off.isLt; have := data.isLt; cases wr <;> simp <;> omega

end

/-- A word of format IO decodes by its port. -/
@[simp] theorem decode_outb (port : Port) (data : Byte) : decode (outb port data) = decodePortWrite port data := by
  simp [decode, outb]

/-- A read of format IO decodes by its port. -/
@[simp] theorem decode_inb (port : Port) : decode (inb port) = decodePortRead port := by
  simp [decode, inb]

@[simp] theorem decode_fbw (off : FbOffset) (data : Byte) : decode (fbw off data) = .fbByteW off data := by
  simp [decode, fbw]

@[simp] theorem decode_fbr (off : FbOffset) : decode (fbr off) = .fbByteR off := by
  simp [decode, fbr]

end Sys2Proof
end

