-- ==== Sys2Proof/Laws/State.lean ====
section
/-! SUPPORT. One lemma per field per update: what each update of the state leaves and what it writes. -/

namespace Sys2Proof.Machine

variable (s : State)

/-! ### Raising a fault -/

@[simp] theorem State.raise_params (c : FaultCode) (i : FaultInfo) : (s.raise c i).params = s.params := rfl
@[simp] theorem State.raise_lcr (c : FaultCode) (i : FaultInfo) : (s.raise c i).lcr = s.lcr := rfl
@[simp] theorem State.raise_dlHi (c : FaultCode) (i : FaultInfo) : (s.raise c i).dlHi = s.dlHi := rfl
@[simp] theorem State.raise_dlLo (c : FaultCode) (i : FaultInfo) : (s.raise c i).dlLo = s.dlLo := rfl
@[simp] theorem State.raise_dlPtr (c : FaultCode) (i : FaultInfo) : (s.raise c i).dlPtr = s.dlPtr := rfl
@[simp] theorem State.raise_fcr (c : FaultCode) (i : FaultInfo) : (s.raise c i).fcr = s.fcr := rfl
@[simp] theorem State.raise_mcr (c : FaultCode) (i : FaultInfo) : (s.raise c i).mcr = s.mcr := rfl
@[simp] theorem State.raise_txq (c : FaultCode) (i : FaultInfo) : (s.raise c i).txq = s.txq := rfl
@[simp] theorem State.raise_line (c : FaultCode) (i : FaultInfo) : (s.raise c i).line = s.line := rfl
@[simp] theorem State.raise_crtcIndex (c : FaultCode) (i : FaultInfo) : (s.raise c i).crtcIndex = s.crtcIndex := rfl
@[simp] theorem State.raise_cursorHi (c : FaultCode) (i : FaultInfo) : (s.raise c i).cursorHi = s.cursorHi := rfl
@[simp] theorem State.raise_cursorLo (c : FaultCode) (i : FaultInfo) : (s.raise c i).cursorLo = s.cursorLo := rfl
@[simp] theorem State.raise_fb (c : FaultCode) (i : FaultInfo) : (s.raise c i).fb = s.fb := rfl
@[simp] theorem State.raise_faults (c : FaultCode) (i : FaultInfo) : (s.raise c i).faults = s.faults.set c := rfl
@[simp] theorem State.raise_faultLog (c : FaultCode) (i : FaultInfo) : (s.raise c i).faultLog = s.faultLog ++ [⟨c, i⟩] := rfl
@[simp] theorem State.raise_refused (c : FaultCode) (i : FaultInfo) : (s.raise c i).refused = s.refused := rfl
@[simp] theorem State.raise_pending (c : FaultCode) (i : FaultInfo) : (s.raise c i).pending = s.pending := rfl
@[simp] theorem State.raise_hpos (c : FaultCode) (i : FaultInfo) : (s.raise c i).hpos = s.hpos := rfl
@[simp] theorem State.raise_trace (c : FaultCode) (i : FaultInfo) : (s.raise c i).trace = s.trace := rfl
@[simp] theorem State.raise_turns (c : FaultCode) (i : FaultInfo) : (s.raise c i).turns = s.turns := rfl
@[simp] theorem State.raise_turnDraws (c : FaultCode) (i : FaultInfo) : (s.raise c i).turnDraws = s.turnDraws := rfl
@[simp] theorem State.raise_draws (c : FaultCode) (i : FaultInfo) : (s.raise c i).draws = s.draws := rfl

/-! ### Refusing -/

@[simp] theorem State.refuse_params (x : RefusalCode) : (s.refuse x).params = s.params := rfl
@[simp] theorem State.refuse_lcr (x : RefusalCode) : (s.refuse x).lcr = s.lcr := rfl
@[simp] theorem State.refuse_dlHi (x : RefusalCode) : (s.refuse x).dlHi = s.dlHi := rfl
@[simp] theorem State.refuse_dlLo (x : RefusalCode) : (s.refuse x).dlLo = s.dlLo := rfl
@[simp] theorem State.refuse_dlPtr (x : RefusalCode) : (s.refuse x).dlPtr = s.dlPtr := rfl
@[simp] theorem State.refuse_fcr (x : RefusalCode) : (s.refuse x).fcr = s.fcr := rfl
@[simp] theorem State.refuse_mcr (x : RefusalCode) : (s.refuse x).mcr = s.mcr := rfl
@[simp] theorem State.refuse_txq (x : RefusalCode) : (s.refuse x).txq = s.txq := rfl
@[simp] theorem State.refuse_line (x : RefusalCode) : (s.refuse x).line = s.line := rfl
@[simp] theorem State.refuse_crtcIndex (x : RefusalCode) : (s.refuse x).crtcIndex = s.crtcIndex := rfl
@[simp] theorem State.refuse_cursorHi (x : RefusalCode) : (s.refuse x).cursorHi = s.cursorHi := rfl
@[simp] theorem State.refuse_cursorLo (x : RefusalCode) : (s.refuse x).cursorLo = s.cursorLo := rfl
@[simp] theorem State.refuse_fb (x : RefusalCode) : (s.refuse x).fb = s.fb := rfl
@[simp] theorem State.refuse_faults (x : RefusalCode) : (s.refuse x).faults = s.faults := rfl
@[simp] theorem State.refuse_faultLog (x : RefusalCode) : (s.refuse x).faultLog = s.faultLog := rfl
@[simp] theorem State.refuse_refused (x : RefusalCode) : (s.refuse x).refused = some x := rfl
@[simp] theorem State.refuse_pending (x : RefusalCode) : (s.refuse x).pending = s.pending := rfl
@[simp] theorem State.refuse_hpos (x : RefusalCode) : (s.refuse x).hpos = s.hpos := rfl
@[simp] theorem State.refuse_trace (x : RefusalCode) : (s.refuse x).trace = s.trace := rfl
@[simp] theorem State.refuse_turns (x : RefusalCode) : (s.refuse x).turns = s.turns := rfl
@[simp] theorem State.refuse_turnDraws (x : RefusalCode) : (s.refuse x).turnDraws = s.turnDraws := rfl
@[simp] theorem State.refuse_draws (x : RefusalCode) : (s.refuse x).draws = s.draws := rfl

/-! ### Completing a transaction -/

@[simp] theorem State.complete_params (i : Instr) (r : Option Byte) : (s.complete i r).params = s.params := rfl
@[simp] theorem State.complete_lcr (i : Instr) (r : Option Byte) : (s.complete i r).lcr = s.lcr := rfl
@[simp] theorem State.complete_dlHi (i : Instr) (r : Option Byte) : (s.complete i r).dlHi = s.dlHi := rfl
@[simp] theorem State.complete_dlLo (i : Instr) (r : Option Byte) : (s.complete i r).dlLo = s.dlLo := rfl
@[simp] theorem State.complete_dlPtr (i : Instr) (r : Option Byte) : (s.complete i r).dlPtr = s.dlPtr := rfl
@[simp] theorem State.complete_fcr (i : Instr) (r : Option Byte) : (s.complete i r).fcr = s.fcr := rfl
@[simp] theorem State.complete_mcr (i : Instr) (r : Option Byte) : (s.complete i r).mcr = s.mcr := rfl
@[simp] theorem State.complete_txq (i : Instr) (r : Option Byte) : (s.complete i r).txq = s.txq := rfl
@[simp] theorem State.complete_line (i : Instr) (r : Option Byte) : (s.complete i r).line = s.line := rfl
@[simp] theorem State.complete_crtcIndex (i : Instr) (r : Option Byte) : (s.complete i r).crtcIndex = s.crtcIndex := rfl
@[simp] theorem State.complete_cursorHi (i : Instr) (r : Option Byte) : (s.complete i r).cursorHi = s.cursorHi := rfl
@[simp] theorem State.complete_cursorLo (i : Instr) (r : Option Byte) : (s.complete i r).cursorLo = s.cursorLo := rfl
@[simp] theorem State.complete_fb (i : Instr) (r : Option Byte) : (s.complete i r).fb = s.fb := rfl
@[simp] theorem State.complete_faults (i : Instr) (r : Option Byte) : (s.complete i r).faults = s.faults := rfl
@[simp] theorem State.complete_faultLog (i : Instr) (r : Option Byte) : (s.complete i r).faultLog = s.faultLog := rfl
@[simp] theorem State.complete_refused (i : Instr) (r : Option Byte) : (s.complete i r).refused = s.refused := rfl
@[simp] theorem State.complete_pending (i : Instr) (r : Option Byte) : (s.complete i r).pending = s.pending := rfl
@[simp] theorem State.complete_hpos (i : Instr) (r : Option Byte) : (s.complete i r).hpos = s.hpos := rfl
@[simp] theorem State.complete_trace (i : Instr) (r : Option Byte) : (s.complete i r).trace = s.trace ++ [⟨encode i, r⟩] := rfl
@[simp] theorem State.complete_turns (i : Instr) (r : Option Byte) : (s.complete i r).turns = s.turns := rfl
@[simp] theorem State.complete_turnDraws (i : Instr) (r : Option Byte) : (s.complete i r).turnDraws = s.turnDraws := rfl
@[simp] theorem State.complete_draws (i : Instr) (r : Option Byte) : (s.complete i r).draws = s.draws := rfl

/-! ### Drawing -/

@[simp] theorem State.draw_params : (s.draw.2).params = s.params := rfl
@[simp] theorem State.draw_lcr : (s.draw.2).lcr = s.lcr := rfl
@[simp] theorem State.draw_dlHi : (s.draw.2).dlHi = s.dlHi := rfl
@[simp] theorem State.draw_dlLo : (s.draw.2).dlLo = s.dlLo := rfl
@[simp] theorem State.draw_dlPtr : (s.draw.2).dlPtr = s.dlPtr := rfl
@[simp] theorem State.draw_fcr : (s.draw.2).fcr = s.fcr := rfl
@[simp] theorem State.draw_mcr : (s.draw.2).mcr = s.mcr := rfl
@[simp] theorem State.draw_txq : (s.draw.2).txq = s.txq := rfl
@[simp] theorem State.draw_line : (s.draw.2).line = s.line := rfl
@[simp] theorem State.draw_crtcIndex : (s.draw.2).crtcIndex = s.crtcIndex := rfl
@[simp] theorem State.draw_cursorHi : (s.draw.2).cursorHi = s.cursorHi := rfl
@[simp] theorem State.draw_cursorLo : (s.draw.2).cursorLo = s.cursorLo := rfl
@[simp] theorem State.draw_fb : (s.draw.2).fb = s.fb := rfl
@[simp] theorem State.draw_faults : (s.draw.2).faults = s.faults := rfl
@[simp] theorem State.draw_faultLog : (s.draw.2).faultLog = s.faultLog := rfl
@[simp] theorem State.draw_refused : (s.draw.2).refused = s.refused := rfl
@[simp] theorem State.draw_pending : (s.draw.2).pending = s.pending := rfl
@[simp] theorem State.draw_hpos : (s.draw.2).hpos = s.hpos := rfl
@[simp] theorem State.draw_trace : (s.draw.2).trace = s.trace := rfl
@[simp] theorem State.draw_turns : (s.draw.2).turns = s.turns := rfl
@[simp] theorem State.draw_turnDraws : (s.draw.2).turnDraws = s.turnDraws := rfl
@[simp] theorem State.draw_draws : (s.draw.2).draws = s.draws + 1 := rfl

/-! ### The LCR write -/

@[simp] theorem State.lcrWrite_params (v : Byte) : (s.lcrWrite v).params = s.params := rfl
@[simp] theorem State.lcrWrite_lcr (v : Byte) : (s.lcrWrite v).lcr = v := rfl
@[simp] theorem State.lcrWrite_dlHi (v : Byte) : (s.lcrWrite v).dlHi = s.dlHi := rfl
@[simp] theorem State.lcrWrite_dlLo (v : Byte) : (s.lcrWrite v).dlLo = s.dlLo := rfl
@[simp] theorem State.lcrWrite_dlPtr (v : Byte) : (s.lcrWrite v).dlPtr = .high := rfl
@[simp] theorem State.lcrWrite_fcr (v : Byte) : (s.lcrWrite v).fcr = s.fcr := rfl
@[simp] theorem State.lcrWrite_mcr (v : Byte) : (s.lcrWrite v).mcr = s.mcr := rfl
@[simp] theorem State.lcrWrite_txq (v : Byte) : (s.lcrWrite v).txq = s.txq := rfl
@[simp] theorem State.lcrWrite_line (v : Byte) : (s.lcrWrite v).line = s.line := rfl
@[simp] theorem State.lcrWrite_crtcIndex (v : Byte) : (s.lcrWrite v).crtcIndex = s.crtcIndex := rfl
@[simp] theorem State.lcrWrite_cursorHi (v : Byte) : (s.lcrWrite v).cursorHi = s.cursorHi := rfl
@[simp] theorem State.lcrWrite_cursorLo (v : Byte) : (s.lcrWrite v).cursorLo = s.cursorLo := rfl
@[simp] theorem State.lcrWrite_fb (v : Byte) : (s.lcrWrite v).fb = s.fb := rfl
@[simp] theorem State.lcrWrite_faults (v : Byte) : (s.lcrWrite v).faults = s.faults := rfl
@[simp] theorem State.lcrWrite_faultLog (v : Byte) : (s.lcrWrite v).faultLog = s.faultLog := rfl
@[simp] theorem State.lcrWrite_refused (v : Byte) : (s.lcrWrite v).refused = s.refused := rfl
@[simp] theorem State.lcrWrite_pending (v : Byte) : (s.lcrWrite v).pending = s.pending := rfl
@[simp] theorem State.lcrWrite_hpos (v : Byte) : (s.lcrWrite v).hpos = s.hpos := rfl
@[simp] theorem State.lcrWrite_trace (v : Byte) : (s.lcrWrite v).trace = s.trace := rfl
@[simp] theorem State.lcrWrite_turns (v : Byte) : (s.lcrWrite v).turns = s.turns := rfl
@[simp] theorem State.lcrWrite_turnDraws (v : Byte) : (s.lcrWrite v).turnDraws = s.turnDraws := rfl
@[simp] theorem State.lcrWrite_draws (v : Byte) : (s.lcrWrite v).draws = s.draws := rfl

/-! ### The FCR write -/

@[simp] theorem State.fcrWrite_params (v : Byte) : (s.fcrWrite v).params = s.params := rfl
@[simp] theorem State.fcrWrite_lcr (v : Byte) : (s.fcrWrite v).lcr = s.lcr := rfl
@[simp] theorem State.fcrWrite_dlHi (v : Byte) : (s.fcrWrite v).dlHi = s.dlHi := rfl
@[simp] theorem State.fcrWrite_dlLo (v : Byte) : (s.fcrWrite v).dlLo = s.dlLo := rfl
@[simp] theorem State.fcrWrite_dlPtr (v : Byte) : (s.fcrWrite v).dlPtr = s.dlPtr := rfl
@[simp] theorem State.fcrWrite_fcr (v : Byte) : (s.fcrWrite v).fcr = fcrRetained v := rfl
@[simp] theorem State.fcrWrite_mcr (v : Byte) : (s.fcrWrite v).mcr = s.mcr := rfl
@[simp] theorem State.fcrWrite_txq (v : Byte) : (s.fcrWrite v).txq = if fcrFifoe v ≠ s.fcr.fifoEn ∨ fcrTxclr v = true then [] else s.txq := rfl
@[simp] theorem State.fcrWrite_line (v : Byte) : (s.fcrWrite v).line = s.line := rfl
@[simp] theorem State.fcrWrite_crtcIndex (v : Byte) : (s.fcrWrite v).crtcIndex = s.crtcIndex := rfl
@[simp] theorem State.fcrWrite_cursorHi (v : Byte) : (s.fcrWrite v).cursorHi = s.cursorHi := rfl
@[simp] theorem State.fcrWrite_cursorLo (v : Byte) : (s.fcrWrite v).cursorLo = s.cursorLo := rfl
@[simp] theorem State.fcrWrite_fb (v : Byte) : (s.fcrWrite v).fb = s.fb := rfl
@[simp] theorem State.fcrWrite_faults (v : Byte) : (s.fcrWrite v).faults = s.faults := rfl
@[simp] theorem State.fcrWrite_faultLog (v : Byte) : (s.fcrWrite v).faultLog = s.faultLog := rfl
@[simp] theorem State.fcrWrite_refused (v : Byte) : (s.fcrWrite v).refused = s.refused := rfl
@[simp] theorem State.fcrWrite_pending (v : Byte) : (s.fcrWrite v).pending = s.pending := rfl
@[simp] theorem State.fcrWrite_hpos (v : Byte) : (s.fcrWrite v).hpos = s.hpos := rfl
@[simp] theorem State.fcrWrite_trace (v : Byte) : (s.fcrWrite v).trace = s.trace := rfl
@[simp] theorem State.fcrWrite_turns (v : Byte) : (s.fcrWrite v).turns = s.turns := rfl
@[simp] theorem State.fcrWrite_turnDraws (v : Byte) : (s.fcrWrite v).turnDraws = s.turnDraws := rfl
@[simp] theorem State.fcrWrite_draws (v : Byte) : (s.fcrWrite v).draws = s.draws := rfl

/-! ### The LSR read -/

@[simp] theorem State.lsrRead_params : (s.lsrRead.2).params = s.params := rfl
@[simp] theorem State.lsrRead_lcr : (s.lsrRead.2).lcr = s.lcr := rfl
@[simp] theorem State.lsrRead_dlHi : (s.lsrRead.2).dlHi = s.dlHi := rfl
@[simp] theorem State.lsrRead_dlLo : (s.lsrRead.2).dlLo = s.dlLo := rfl
@[simp] theorem State.lsrRead_dlPtr : (s.lsrRead.2).dlPtr = s.dlPtr := rfl
@[simp] theorem State.lsrRead_fcr : (s.lsrRead.2).fcr = s.fcr := rfl
@[simp] theorem State.lsrRead_mcr : (s.lsrRead.2).mcr = s.mcr := rfl
@[simp] theorem State.lsrRead_txq : (s.lsrRead.2).txq = s.txq := rfl
@[simp] theorem State.lsrRead_line : (s.lsrRead.2).line = s.line := rfl
@[simp] theorem State.lsrRead_crtcIndex : (s.lsrRead.2).crtcIndex = s.crtcIndex := rfl
@[simp] theorem State.lsrRead_cursorHi : (s.lsrRead.2).cursorHi = s.cursorHi := rfl
@[simp] theorem State.lsrRead_cursorLo : (s.lsrRead.2).cursorLo = s.cursorLo := rfl
@[simp] theorem State.lsrRead_fb : (s.lsrRead.2).fb = s.fb := rfl
@[simp] theorem State.lsrRead_faults : (s.lsrRead.2).faults = s.faults := rfl
@[simp] theorem State.lsrRead_faultLog : (s.lsrRead.2).faultLog = s.faultLog := rfl
@[simp] theorem State.lsrRead_refused : (s.lsrRead.2).refused = s.refused := rfl
@[simp] theorem State.lsrRead_pending : (s.lsrRead.2).pending = s.pending := rfl
@[simp] theorem State.lsrRead_hpos : (s.lsrRead.2).hpos = s.hpos := rfl
@[simp] theorem State.lsrRead_trace : (s.lsrRead.2).trace = s.trace := rfl
@[simp] theorem State.lsrRead_turns : (s.lsrRead.2).turns = s.turns := rfl
@[simp] theorem State.lsrRead_turnDraws : (s.lsrRead.2).turnDraws = s.turnDraws := rfl
@[simp] theorem State.lsrRead_draws : (s.lsrRead.2).draws = s.draws + 1 := rfl

/-! ### Advancing the host -/

@[simp] theorem State.advance_params : (s.advance).params = s.params := rfl
@[simp] theorem State.advance_lcr : (s.advance).lcr = s.lcr := rfl
@[simp] theorem State.advance_dlHi : (s.advance).dlHi = s.dlHi := rfl
@[simp] theorem State.advance_dlLo : (s.advance).dlLo = s.dlLo := rfl
@[simp] theorem State.advance_dlPtr : (s.advance).dlPtr = s.dlPtr := rfl
@[simp] theorem State.advance_fcr : (s.advance).fcr = s.fcr := rfl
@[simp] theorem State.advance_mcr : (s.advance).mcr = s.mcr := rfl
@[simp] theorem State.advance_txq : (s.advance).txq = s.txq := rfl
@[simp] theorem State.advance_line : (s.advance).line = s.line := rfl
@[simp] theorem State.advance_crtcIndex : (s.advance).crtcIndex = s.crtcIndex := rfl
@[simp] theorem State.advance_cursorHi : (s.advance).cursorHi = s.cursorHi := rfl
@[simp] theorem State.advance_cursorLo : (s.advance).cursorLo = s.cursorLo := rfl
@[simp] theorem State.advance_fb : (s.advance).fb = s.fb := rfl
@[simp] theorem State.advance_faults : (s.advance).faults = s.faults := rfl
@[simp] theorem State.advance_faultLog : (s.advance).faultLog = s.faultLog := rfl
@[simp] theorem State.advance_refused : (s.advance).refused = s.refused := rfl
@[simp] theorem State.advance_pending : (s.advance).pending = s.pending.tail := rfl
@[simp] theorem State.advance_hpos : (s.advance).hpos = s.hpos + 1 := rfl
@[simp] theorem State.advance_trace : (s.advance).trace = s.trace := rfl
@[simp] theorem State.advance_turns : (s.advance).turns = s.turns := rfl
@[simp] theorem State.advance_turnDraws : (s.advance).turnDraws = s.turnDraws := rfl
@[simp] theorem State.advance_draws : (s.advance).draws = s.draws := rfl

/-! ### The THR write -/

@[simp] theorem State.thrWrite_params (i : Instr) (v : Byte) : (s.thrWrite i v).params = s.params := by unfold State.thrWrite; split <;> rfl
@[simp] theorem State.thrWrite_lcr (i : Instr) (v : Byte) : (s.thrWrite i v).lcr = s.lcr := by unfold State.thrWrite; split <;> rfl
@[simp] theorem State.thrWrite_dlHi (i : Instr) (v : Byte) : (s.thrWrite i v).dlHi = s.dlHi := by unfold State.thrWrite; split <;> rfl
@[simp] theorem State.thrWrite_dlLo (i : Instr) (v : Byte) : (s.thrWrite i v).dlLo = s.dlLo := by unfold State.thrWrite; split <;> rfl
@[simp] theorem State.thrWrite_dlPtr (i : Instr) (v : Byte) : (s.thrWrite i v).dlPtr = s.dlPtr := by unfold State.thrWrite; split <;> rfl
@[simp] theorem State.thrWrite_fcr (i : Instr) (v : Byte) : (s.thrWrite i v).fcr = s.fcr := by unfold State.thrWrite; split <;> rfl
@[simp] theorem State.thrWrite_mcr (i : Instr) (v : Byte) : (s.thrWrite i v).mcr = s.mcr := by unfold State.thrWrite; split <;> rfl
@[simp] theorem State.thrWrite_line (i : Instr) (v : Byte) : (s.thrWrite i v).line = s.line := by unfold State.thrWrite; split <;> rfl
@[simp] theorem State.thrWrite_crtcIndex (i : Instr) (v : Byte) : (s.thrWrite i v).crtcIndex = s.crtcIndex := by unfold State.thrWrite; split <;> rfl
@[simp] theorem State.thrWrite_cursorHi (i : Instr) (v : Byte) : (s.thrWrite i v).cursorHi = s.cursorHi := by unfold State.thrWrite; split <;> rfl
@[simp] theorem State.thrWrite_cursorLo (i : Instr) (v : Byte) : (s.thrWrite i v).cursorLo = s.cursorLo := by unfold State.thrWrite; split <;> rfl
@[simp] theorem State.thrWrite_fb (i : Instr) (v : Byte) : (s.thrWrite i v).fb = s.fb := by unfold State.thrWrite; split <;> rfl
@[simp] theorem State.thrWrite_refused (i : Instr) (v : Byte) : (s.thrWrite i v).refused = s.refused := by unfold State.thrWrite; split <;> rfl
@[simp] theorem State.thrWrite_pending (i : Instr) (v : Byte) : (s.thrWrite i v).pending = s.pending := by unfold State.thrWrite; split <;> rfl
@[simp] theorem State.thrWrite_hpos (i : Instr) (v : Byte) : (s.thrWrite i v).hpos = s.hpos := by unfold State.thrWrite; split <;> rfl
@[simp] theorem State.thrWrite_trace (i : Instr) (v : Byte) : (s.thrWrite i v).trace = s.trace := by unfold State.thrWrite; split <;> rfl
@[simp] theorem State.thrWrite_turns (i : Instr) (v : Byte) : (s.thrWrite i v).turns = s.turns := by unfold State.thrWrite; split <;> rfl
@[simp] theorem State.thrWrite_turnDraws (i : Instr) (v : Byte) : (s.thrWrite i v).turnDraws = s.turnDraws := by unfold State.thrWrite; split <;> rfl
@[simp] theorem State.thrWrite_draws (i : Instr) (v : Byte) : (s.thrWrite i v).draws = s.draws := by unfold State.thrWrite; split <;> rfl

/-! ### The divisor write -/

@[simp] theorem State.divisorWrite_params (v : Byte) : (s.divisorWrite v).params = s.params := by unfold State.divisorWrite; split <;> rfl
@[simp] theorem State.divisorWrite_lcr (v : Byte) : (s.divisorWrite v).lcr = s.lcr := by unfold State.divisorWrite; split <;> rfl
@[simp] theorem State.divisorWrite_fcr (v : Byte) : (s.divisorWrite v).fcr = s.fcr := by unfold State.divisorWrite; split <;> rfl
@[simp] theorem State.divisorWrite_mcr (v : Byte) : (s.divisorWrite v).mcr = s.mcr := by unfold State.divisorWrite; split <;> rfl
@[simp] theorem State.divisorWrite_txq (v : Byte) : (s.divisorWrite v).txq = s.txq := by unfold State.divisorWrite; split <;> rfl
@[simp] theorem State.divisorWrite_line (v : Byte) : (s.divisorWrite v).line = s.line := by unfold State.divisorWrite; split <;> rfl
@[simp] theorem State.divisorWrite_crtcIndex (v : Byte) : (s.divisorWrite v).crtcIndex = s.crtcIndex := by unfold State.divisorWrite; split <;> rfl
@[simp] theorem State.divisorWrite_cursorHi (v : Byte) : (s.divisorWrite v).cursorHi = s.cursorHi := by unfold State.divisorWrite; split <;> rfl
@[simp] theorem State.divisorWrite_cursorLo (v : Byte) : (s.divisorWrite v).cursorLo = s.cursorLo := by unfold State.divisorWrite; split <;> rfl
@[simp] theorem State.divisorWrite_fb (v : Byte) : (s.divisorWrite v).fb = s.fb := by unfold State.divisorWrite; split <;> rfl
@[simp] theorem State.divisorWrite_faults (v : Byte) : (s.divisorWrite v).faults = s.faults := by unfold State.divisorWrite; split <;> rfl
@[simp] theorem State.divisorWrite_faultLog (v : Byte) : (s.divisorWrite v).faultLog = s.faultLog := by unfold State.divisorWrite; split <;> rfl
@[simp] theorem State.divisorWrite_refused (v : Byte) : (s.divisorWrite v).refused = s.refused := by unfold State.divisorWrite; split <;> rfl
@[simp] theorem State.divisorWrite_pending (v : Byte) : (s.divisorWrite v).pending = s.pending := by unfold State.divisorWrite; split <;> rfl
@[simp] theorem State.divisorWrite_hpos (v : Byte) : (s.divisorWrite v).hpos = s.hpos := by unfold State.divisorWrite; split <;> rfl
@[simp] theorem State.divisorWrite_trace (v : Byte) : (s.divisorWrite v).trace = s.trace := by unfold State.divisorWrite; split <;> rfl
@[simp] theorem State.divisorWrite_turns (v : Byte) : (s.divisorWrite v).turns = s.turns := by unfold State.divisorWrite; split <;> rfl
@[simp] theorem State.divisorWrite_turnDraws (v : Byte) : (s.divisorWrite v).turnDraws = s.turnDraws := by unfold State.divisorWrite; split <;> rfl
@[simp] theorem State.divisorWrite_draws (v : Byte) : (s.divisorWrite v).draws = s.draws := by unfold State.divisorWrite; split <;> rfl

/-! ### The framebuffer write -/

@[simp] theorem State.fbWrite_params (i : Instr) (off : FbOffset) (v : Byte) : (s.fbWrite i off v).params = s.params := by unfold State.fbWrite; split <;> rfl
@[simp] theorem State.fbWrite_lcr (i : Instr) (off : FbOffset) (v : Byte) : (s.fbWrite i off v).lcr = s.lcr := by unfold State.fbWrite; split <;> rfl
@[simp] theorem State.fbWrite_dlHi (i : Instr) (off : FbOffset) (v : Byte) : (s.fbWrite i off v).dlHi = s.dlHi := by unfold State.fbWrite; split <;> rfl
@[simp] theorem State.fbWrite_dlLo (i : Instr) (off : FbOffset) (v : Byte) : (s.fbWrite i off v).dlLo = s.dlLo := by unfold State.fbWrite; split <;> rfl
@[simp] theorem State.fbWrite_dlPtr (i : Instr) (off : FbOffset) (v : Byte) : (s.fbWrite i off v).dlPtr = s.dlPtr := by unfold State.fbWrite; split <;> rfl
@[simp] theorem State.fbWrite_fcr (i : Instr) (off : FbOffset) (v : Byte) : (s.fbWrite i off v).fcr = s.fcr := by unfold State.fbWrite; split <;> rfl
@[simp] theorem State.fbWrite_mcr (i : Instr) (off : FbOffset) (v : Byte) : (s.fbWrite i off v).mcr = s.mcr := by unfold State.fbWrite; split <;> rfl
@[simp] theorem State.fbWrite_txq (i : Instr) (off : FbOffset) (v : Byte) : (s.fbWrite i off v).txq = s.txq := by unfold State.fbWrite; split <;> rfl
@[simp] theorem State.fbWrite_line (i : Instr) (off : FbOffset) (v : Byte) : (s.fbWrite i off v).line = s.line := by unfold State.fbWrite; split <;> rfl
@[simp] theorem State.fbWrite_crtcIndex (i : Instr) (off : FbOffset) (v : Byte) : (s.fbWrite i off v).crtcIndex = s.crtcIndex := by unfold State.fbWrite; split <;> rfl
@[simp] theorem State.fbWrite_cursorHi (i : Instr) (off : FbOffset) (v : Byte) : (s.fbWrite i off v).cursorHi = s.cursorHi := by unfold State.fbWrite; split <;> rfl
@[simp] theorem State.fbWrite_cursorLo (i : Instr) (off : FbOffset) (v : Byte) : (s.fbWrite i off v).cursorLo = s.cursorLo := by unfold State.fbWrite; split <;> rfl
@[simp] theorem State.fbWrite_refused (i : Instr) (off : FbOffset) (v : Byte) : (s.fbWrite i off v).refused = s.refused := by unfold State.fbWrite; split <;> rfl
@[simp] theorem State.fbWrite_pending (i : Instr) (off : FbOffset) (v : Byte) : (s.fbWrite i off v).pending = s.pending := by unfold State.fbWrite; split <;> rfl
@[simp] theorem State.fbWrite_hpos (i : Instr) (off : FbOffset) (v : Byte) : (s.fbWrite i off v).hpos = s.hpos := by unfold State.fbWrite; split <;> rfl
@[simp] theorem State.fbWrite_trace (i : Instr) (off : FbOffset) (v : Byte) : (s.fbWrite i off v).trace = s.trace := by unfold State.fbWrite; split <;> rfl
@[simp] theorem State.fbWrite_turns (i : Instr) (off : FbOffset) (v : Byte) : (s.fbWrite i off v).turns = s.turns := by unfold State.fbWrite; split <;> rfl
@[simp] theorem State.fbWrite_turnDraws (i : Instr) (off : FbOffset) (v : Byte) : (s.fbWrite i off v).turnDraws = s.turnDraws := by unfold State.fbWrite; split <;> rfl
@[simp] theorem State.fbWrite_draws (i : Instr) (off : FbOffset) (v : Byte) : (s.fbWrite i off v).draws = s.draws := by unfold State.fbWrite; split <;> rfl

/-! ### The framebuffer read -/

@[simp] theorem State.fbRead_params (i : Instr) (off : FbOffset) : ((s.fbRead i off).2).params = s.params := by unfold State.fbRead; split; rfl; split <;> rfl
@[simp] theorem State.fbRead_lcr (i : Instr) (off : FbOffset) : ((s.fbRead i off).2).lcr = s.lcr := by unfold State.fbRead; split; rfl; split <;> rfl
@[simp] theorem State.fbRead_dlHi (i : Instr) (off : FbOffset) : ((s.fbRead i off).2).dlHi = s.dlHi := by unfold State.fbRead; split; rfl; split <;> rfl
@[simp] theorem State.fbRead_dlLo (i : Instr) (off : FbOffset) : ((s.fbRead i off).2).dlLo = s.dlLo := by unfold State.fbRead; split; rfl; split <;> rfl
@[simp] theorem State.fbRead_dlPtr (i : Instr) (off : FbOffset) : ((s.fbRead i off).2).dlPtr = s.dlPtr := by unfold State.fbRead; split; rfl; split <;> rfl
@[simp] theorem State.fbRead_fcr (i : Instr) (off : FbOffset) : ((s.fbRead i off).2).fcr = s.fcr := by unfold State.fbRead; split; rfl; split <;> rfl
@[simp] theorem State.fbRead_mcr (i : Instr) (off : FbOffset) : ((s.fbRead i off).2).mcr = s.mcr := by unfold State.fbRead; split; rfl; split <;> rfl
@[simp] theorem State.fbRead_txq (i : Instr) (off : FbOffset) : ((s.fbRead i off).2).txq = s.txq := by unfold State.fbRead; split; rfl; split <;> rfl
@[simp] theorem State.fbRead_line (i : Instr) (off : FbOffset) : ((s.fbRead i off).2).line = s.line := by unfold State.fbRead; split; rfl; split <;> rfl
@[simp] theorem State.fbRead_crtcIndex (i : Instr) (off : FbOffset) : ((s.fbRead i off).2).crtcIndex = s.crtcIndex := by unfold State.fbRead; split; rfl; split <;> rfl
@[simp] theorem State.fbRead_cursorHi (i : Instr) (off : FbOffset) : ((s.fbRead i off).2).cursorHi = s.cursorHi := by unfold State.fbRead; split; rfl; split <;> rfl
@[simp] theorem State.fbRead_cursorLo (i : Instr) (off : FbOffset) : ((s.fbRead i off).2).cursorLo = s.cursorLo := by unfold State.fbRead; split; rfl; split <;> rfl
@[simp] theorem State.fbRead_fb (i : Instr) (off : FbOffset) : ((s.fbRead i off).2).fb = s.fb := by unfold State.fbRead; split; rfl; split <;> rfl
@[simp] theorem State.fbRead_refused (i : Instr) (off : FbOffset) : ((s.fbRead i off).2).refused = s.refused := by unfold State.fbRead; split; rfl; split <;> rfl
@[simp] theorem State.fbRead_pending (i : Instr) (off : FbOffset) : ((s.fbRead i off).2).pending = s.pending := by unfold State.fbRead; split; rfl; split <;> rfl
@[simp] theorem State.fbRead_hpos (i : Instr) (off : FbOffset) : ((s.fbRead i off).2).hpos = s.hpos := by unfold State.fbRead; split; rfl; split <;> rfl
@[simp] theorem State.fbRead_trace (i : Instr) (off : FbOffset) : ((s.fbRead i off).2).trace = s.trace := by unfold State.fbRead; split; rfl; split <;> rfl
@[simp] theorem State.fbRead_turns (i : Instr) (off : FbOffset) : ((s.fbRead i off).2).turns = s.turns := by unfold State.fbRead; split; rfl; split <;> rfl
@[simp] theorem State.fbRead_turnDraws (i : Instr) (off : FbOffset) : ((s.fbRead i off).2).turnDraws = s.turnDraws := by unfold State.fbRead; split; rfl; split <;> rfl

/-! ### The CRTC data write -/

@[simp] theorem State.crtcDataWrite_params (i : Instr) (v : Byte) : (s.crtcDataWrite i v).params = s.params := by unfold State.crtcDataWrite; split; rfl; split; rfl; split <;> rfl
@[simp] theorem State.crtcDataWrite_lcr (i : Instr) (v : Byte) : (s.crtcDataWrite i v).lcr = s.lcr := by unfold State.crtcDataWrite; split; rfl; split; rfl; split <;> rfl
@[simp] theorem State.crtcDataWrite_dlHi (i : Instr) (v : Byte) : (s.crtcDataWrite i v).dlHi = s.dlHi := by unfold State.crtcDataWrite; split; rfl; split; rfl; split <;> rfl
@[simp] theorem State.crtcDataWrite_dlLo (i : Instr) (v : Byte) : (s.crtcDataWrite i v).dlLo = s.dlLo := by unfold State.crtcDataWrite; split; rfl; split; rfl; split <;> rfl
@[simp] theorem State.crtcDataWrite_dlPtr (i : Instr) (v : Byte) : (s.crtcDataWrite i v).dlPtr = s.dlPtr := by unfold State.crtcDataWrite; split; rfl; split; rfl; split <;> rfl
@[simp] theorem State.crtcDataWrite_fcr (i : Instr) (v : Byte) : (s.crtcDataWrite i v).fcr = s.fcr := by unfold State.crtcDataWrite; split; rfl; split; rfl; split <;> rfl
@[simp] theorem State.crtcDataWrite_mcr (i : Instr) (v : Byte) : (s.crtcDataWrite i v).mcr = s.mcr := by unfold State.crtcDataWrite; split; rfl; split; rfl; split <;> rfl
@[simp] theorem State.crtcDataWrite_txq (i : Instr) (v : Byte) : (s.crtcDataWrite i v).txq = s.txq := by unfold State.crtcDataWrite; split; rfl; split; rfl; split <;> rfl
@[simp] theorem State.crtcDataWrite_line (i : Instr) (v : Byte) : (s.crtcDataWrite i v).line = s.line := by unfold State.crtcDataWrite; split; rfl; split; rfl; split <;> rfl
@[simp] theorem State.crtcDataWrite_crtcIndex (i : Instr) (v : Byte) : (s.crtcDataWrite i v).crtcIndex = s.crtcIndex := by unfold State.crtcDataWrite; split; rfl; split; rfl; split <;> rfl
@[simp] theorem State.crtcDataWrite_fb (i : Instr) (v : Byte) : (s.crtcDataWrite i v).fb = s.fb := by unfold State.crtcDataWrite; split; rfl; split; rfl; split <;> rfl
@[simp] theorem State.crtcDataWrite_pending (i : Instr) (v : Byte) : (s.crtcDataWrite i v).pending = s.pending := by unfold State.crtcDataWrite; split; rfl; split; rfl; split <;> rfl
@[simp] theorem State.crtcDataWrite_hpos (i : Instr) (v : Byte) : (s.crtcDataWrite i v).hpos = s.hpos := by unfold State.crtcDataWrite; split; rfl; split; rfl; split <;> rfl
@[simp] theorem State.crtcDataWrite_turns (i : Instr) (v : Byte) : (s.crtcDataWrite i v).turns = s.turns := by unfold State.crtcDataWrite; split; rfl; split; rfl; split <;> rfl
@[simp] theorem State.crtcDataWrite_turnDraws (i : Instr) (v : Byte) : (s.crtcDataWrite i v).turnDraws = s.turnDraws := by unfold State.crtcDataWrite; split; rfl; split; rfl; split <;> rfl
@[simp] theorem State.crtcDataWrite_draws (i : Instr) (v : Byte) : (s.crtcDataWrite i v).draws = s.draws := by unfold State.crtcDataWrite; split; rfl; split; rfl; split <;> rfl

/-! ### The transmitter step -/

@[simp] theorem State.txStep_params : (s.txStep).params = s.params := by unfold State.txStep; split; rfl; split <;> rfl
@[simp] theorem State.txStep_lcr : (s.txStep).lcr = s.lcr := by unfold State.txStep; split; rfl; split <;> rfl
@[simp] theorem State.txStep_dlHi : (s.txStep).dlHi = s.dlHi := by unfold State.txStep; split; rfl; split <;> rfl
@[simp] theorem State.txStep_dlLo : (s.txStep).dlLo = s.dlLo := by unfold State.txStep; split; rfl; split <;> rfl
@[simp] theorem State.txStep_dlPtr : (s.txStep).dlPtr = s.dlPtr := by unfold State.txStep; split; rfl; split <;> rfl
@[simp] theorem State.txStep_fcr : (s.txStep).fcr = s.fcr := by unfold State.txStep; split; rfl; split <;> rfl
@[simp] theorem State.txStep_mcr : (s.txStep).mcr = s.mcr := by unfold State.txStep; split; rfl; split <;> rfl
@[simp] theorem State.txStep_crtcIndex : (s.txStep).crtcIndex = s.crtcIndex := by unfold State.txStep; split; rfl; split <;> rfl
@[simp] theorem State.txStep_cursorHi : (s.txStep).cursorHi = s.cursorHi := by unfold State.txStep; split; rfl; split <;> rfl
@[simp] theorem State.txStep_cursorLo : (s.txStep).cursorLo = s.cursorLo := by unfold State.txStep; split; rfl; split <;> rfl
@[simp] theorem State.txStep_fb : (s.txStep).fb = s.fb := by unfold State.txStep; split; rfl; split <;> rfl
@[simp] theorem State.txStep_faults : (s.txStep).faults = s.faults := by unfold State.txStep; split; rfl; split <;> rfl
@[simp] theorem State.txStep_faultLog : (s.txStep).faultLog = s.faultLog := by unfold State.txStep; split; rfl; split <;> rfl
@[simp] theorem State.txStep_pending : (s.txStep).pending = s.pending := by unfold State.txStep; split; rfl; split <;> rfl
@[simp] theorem State.txStep_hpos : (s.txStep).hpos = s.hpos := by unfold State.txStep; split; rfl; split <;> rfl
@[simp] theorem State.txStep_trace : (s.txStep).trace = s.trace := by unfold State.txStep; split; rfl; split <;> rfl
@[simp] theorem State.txStep_turns : (s.txStep).turns = s.turns := by unfold State.txStep; split; rfl; split <;> rfl
@[simp] theorem State.txStep_turnDraws : (s.txStep).turnDraws = s.turnDraws := by unfold State.txStep; split; rfl; split <;> rfl
@[simp] theorem State.txStep_draws : (s.txStep).draws = s.draws := by unfold State.txStep; split; rfl; split <;> rfl

/-! ### Replacing the turns -/

@[simp] theorem State.setTurns_params (ts : List Agent) (n : Nat) : (s.setTurns ts n).params = s.params := rfl
@[simp] theorem State.setTurns_lcr (ts : List Agent) (n : Nat) : (s.setTurns ts n).lcr = s.lcr := rfl
@[simp] theorem State.setTurns_dlHi (ts : List Agent) (n : Nat) : (s.setTurns ts n).dlHi = s.dlHi := rfl
@[simp] theorem State.setTurns_dlLo (ts : List Agent) (n : Nat) : (s.setTurns ts n).dlLo = s.dlLo := rfl
@[simp] theorem State.setTurns_dlPtr (ts : List Agent) (n : Nat) : (s.setTurns ts n).dlPtr = s.dlPtr := rfl
@[simp] theorem State.setTurns_fcr (ts : List Agent) (n : Nat) : (s.setTurns ts n).fcr = s.fcr := rfl
@[simp] theorem State.setTurns_mcr (ts : List Agent) (n : Nat) : (s.setTurns ts n).mcr = s.mcr := rfl
@[simp] theorem State.setTurns_txq (ts : List Agent) (n : Nat) : (s.setTurns ts n).txq = s.txq := rfl
@[simp] theorem State.setTurns_line (ts : List Agent) (n : Nat) : (s.setTurns ts n).line = s.line := rfl
@[simp] theorem State.setTurns_crtcIndex (ts : List Agent) (n : Nat) : (s.setTurns ts n).crtcIndex = s.crtcIndex := rfl
@[simp] theorem State.setTurns_cursorHi (ts : List Agent) (n : Nat) : (s.setTurns ts n).cursorHi = s.cursorHi := rfl
@[simp] theorem State.setTurns_cursorLo (ts : List Agent) (n : Nat) : (s.setTurns ts n).cursorLo = s.cursorLo := rfl
@[simp] theorem State.setTurns_fb (ts : List Agent) (n : Nat) : (s.setTurns ts n).fb = s.fb := rfl
@[simp] theorem State.setTurns_faults (ts : List Agent) (n : Nat) : (s.setTurns ts n).faults = s.faults := rfl
@[simp] theorem State.setTurns_faultLog (ts : List Agent) (n : Nat) : (s.setTurns ts n).faultLog = s.faultLog := rfl
@[simp] theorem State.setTurns_refused (ts : List Agent) (n : Nat) : (s.setTurns ts n).refused = s.refused := rfl
@[simp] theorem State.setTurns_pending (ts : List Agent) (n : Nat) : (s.setTurns ts n).pending = s.pending := rfl
@[simp] theorem State.setTurns_hpos (ts : List Agent) (n : Nat) : (s.setTurns ts n).hpos = s.hpos := rfl
@[simp] theorem State.setTurns_trace (ts : List Agent) (n : Nat) : (s.setTurns ts n).trace = s.trace := rfl
@[simp] theorem State.setTurns_turns (ts : List Agent) (n : Nat) : (s.setTurns ts n).turns = ts := rfl
@[simp] theorem State.setTurns_turnDraws (ts : List Agent) (n : Nat) : (s.setTurns ts n).turnDraws = n := rfl
@[simp] theorem State.setTurns_draws (ts : List Agent) (n : Nat) : (s.setTurns ts n).draws = s.draws := rfl

/-! ### Taking a turn -/

@[simp] theorem State.takeTurn_params : (s.takeTurn.2).params = s.params := by unfold State.takeTurn; split; rfl; split <;> rfl
@[simp] theorem State.takeTurn_lcr : (s.takeTurn.2).lcr = s.lcr := by unfold State.takeTurn; split; rfl; split <;> rfl
@[simp] theorem State.takeTurn_dlHi : (s.takeTurn.2).dlHi = s.dlHi := by unfold State.takeTurn; split; rfl; split <;> rfl
@[simp] theorem State.takeTurn_dlLo : (s.takeTurn.2).dlLo = s.dlLo := by unfold State.takeTurn; split; rfl; split <;> rfl
@[simp] theorem State.takeTurn_dlPtr : (s.takeTurn.2).dlPtr = s.dlPtr := by unfold State.takeTurn; split; rfl; split <;> rfl
@[simp] theorem State.takeTurn_fcr : (s.takeTurn.2).fcr = s.fcr := by unfold State.takeTurn; split; rfl; split <;> rfl
@[simp] theorem State.takeTurn_mcr : (s.takeTurn.2).mcr = s.mcr := by unfold State.takeTurn; split; rfl; split <;> rfl
@[simp] theorem State.takeTurn_txq : (s.takeTurn.2).txq = s.txq := by unfold State.takeTurn; split; rfl; split <;> rfl
@[simp] theorem State.takeTurn_line : (s.takeTurn.2).line = s.line := by unfold State.takeTurn; split; rfl; split <;> rfl
@[simp] theorem State.takeTurn_crtcIndex : (s.takeTurn.2).crtcIndex = s.crtcIndex := by unfold State.takeTurn; split; rfl; split <;> rfl
@[simp] theorem State.takeTurn_cursorHi : (s.takeTurn.2).cursorHi = s.cursorHi := by unfold State.takeTurn; split; rfl; split <;> rfl
@[simp] theorem State.takeTurn_cursorLo : (s.takeTurn.2).cursorLo = s.cursorLo := by unfold State.takeTurn; split; rfl; split <;> rfl
@[simp] theorem State.takeTurn_fb : (s.takeTurn.2).fb = s.fb := by unfold State.takeTurn; split; rfl; split <;> rfl
@[simp] theorem State.takeTurn_faults : (s.takeTurn.2).faults = s.faults := by unfold State.takeTurn; split; rfl; split <;> rfl
@[simp] theorem State.takeTurn_faultLog : (s.takeTurn.2).faultLog = s.faultLog := by unfold State.takeTurn; split; rfl; split <;> rfl
@[simp] theorem State.takeTurn_refused : (s.takeTurn.2).refused = s.refused := by unfold State.takeTurn; split; rfl; split <;> rfl
@[simp] theorem State.takeTurn_pending : (s.takeTurn.2).pending = s.pending := by unfold State.takeTurn; split; rfl; split <;> rfl
@[simp] theorem State.takeTurn_hpos : (s.takeTurn.2).hpos = s.hpos := by unfold State.takeTurn; split; rfl; split <;> rfl
@[simp] theorem State.takeTurn_trace : (s.takeTurn.2).trace = s.trace := by unfold State.takeTurn; split; rfl; split <;> rfl
@[simp] theorem State.takeTurn_draws : (s.takeTurn.2).draws = s.draws := by unfold State.takeTurn; split; rfl; split <;> rfl

/-! ### What is derived, after the updates that do not touch it -/

@[simp] theorem State.raise_thre (c : FaultCode) (i : FaultInfo) : (s.raise c i).thre = s.thre := rfl
@[simp] theorem State.raise_cap (c : FaultCode) (i : FaultInfo) : (s.raise c i).cap = s.cap := rfl
@[simp] theorem State.raise_dlab (c : FaultCode) (i : FaultInfo) : (s.raise c i).dlab = s.dlab := rfl
@[simp] theorem State.raise_dl (c : FaultCode) (i : FaultInfo) : (s.raise c i).dl = s.dl := rfl
@[simp] theorem State.raise_cursorPos (c : FaultCode) (i : FaultInfo) : (s.raise c i).cursorPos = s.cursorPos := rfl
@[simp] theorem State.refuse_thre (x : RefusalCode) : (s.refuse x).thre = s.thre := rfl
@[simp] theorem State.refuse_cap (x : RefusalCode) : (s.refuse x).cap = s.cap := rfl
@[simp] theorem State.refuse_dlab (x : RefusalCode) : (s.refuse x).dlab = s.dlab := rfl
@[simp] theorem State.refuse_dl (x : RefusalCode) : (s.refuse x).dl = s.dl := rfl
@[simp] theorem State.refuse_cursorPos (x : RefusalCode) : (s.refuse x).cursorPos = s.cursorPos := rfl
@[simp] theorem State.complete_thre (i : Instr) (r : Option Byte) : (s.complete i r).thre = s.thre := rfl
@[simp] theorem State.complete_cap (i : Instr) (r : Option Byte) : (s.complete i r).cap = s.cap := rfl
@[simp] theorem State.complete_dlab (i : Instr) (r : Option Byte) : (s.complete i r).dlab = s.dlab := rfl
@[simp] theorem State.complete_dl (i : Instr) (r : Option Byte) : (s.complete i r).dl = s.dl := rfl
@[simp] theorem State.complete_cursorPos (i : Instr) (r : Option Byte) : (s.complete i r).cursorPos = s.cursorPos := rfl
@[simp] theorem State.draw_thre : (s.draw.2).thre = s.thre := rfl
@[simp] theorem State.draw_cap : (s.draw.2).cap = s.cap := rfl
@[simp] theorem State.draw_dlab : (s.draw.2).dlab = s.dlab := rfl
@[simp] theorem State.draw_dl : (s.draw.2).dl = s.dl := rfl
@[simp] theorem State.draw_cursorPos : (s.draw.2).cursorPos = s.cursorPos := rfl
@[simp] theorem State.lsrRead_thre : (s.lsrRead.2).thre = s.thre := rfl
@[simp] theorem State.lsrRead_cap : (s.lsrRead.2).cap = s.cap := rfl
@[simp] theorem State.lsrRead_dlab : (s.lsrRead.2).dlab = s.dlab := rfl
@[simp] theorem State.lsrRead_dl : (s.lsrRead.2).dl = s.dl := rfl
@[simp] theorem State.lsrRead_cursorPos : (s.lsrRead.2).cursorPos = s.cursorPos := rfl
@[simp] theorem State.advance_thre : (s.advance).thre = s.thre := rfl
@[simp] theorem State.advance_cap : (s.advance).cap = s.cap := rfl
@[simp] theorem State.advance_dlab : (s.advance).dlab = s.dlab := rfl
@[simp] theorem State.advance_dl : (s.advance).dl = s.dl := rfl
@[simp] theorem State.advance_cursorPos : (s.advance).cursorPos = s.cursorPos := rfl
@[simp] theorem State.setTurns_thre (ts : List Agent) (n : Nat) : (s.setTurns ts n).thre = s.thre := rfl
@[simp] theorem State.setTurns_cap (ts : List Agent) (n : Nat) : (s.setTurns ts n).cap = s.cap := rfl
@[simp] theorem State.setTurns_dlab (ts : List Agent) (n : Nat) : (s.setTurns ts n).dlab = s.dlab := rfl
@[simp] theorem State.setTurns_dl (ts : List Agent) (n : Nat) : (s.setTurns ts n).dl = s.dl := rfl
@[simp] theorem State.setTurns_cursorPos (ts : List Agent) (n : Nat) : (s.setTurns ts n).cursorPos = s.cursorPos := rfl
@[simp] theorem State.lcrWrite_thre (v : Byte) : (s.lcrWrite v).thre = s.thre := rfl
@[simp] theorem State.lcrWrite_cap (v : Byte) : (s.lcrWrite v).cap = s.cap := rfl
@[simp] theorem State.lcrWrite_dl (v : Byte) : (s.lcrWrite v).dl = s.dl := rfl
@[simp] theorem State.lcrWrite_cursorPos (v : Byte) : (s.lcrWrite v).cursorPos = s.cursorPos := rfl
@[simp] theorem State.divisorWrite_thre (v : Byte) : (s.divisorWrite v).thre = s.thre := by
  simp only [State.thre, State.divisorWrite_txq]
@[simp] theorem State.divisorWrite_cap (v : Byte) : (s.divisorWrite v).cap = s.cap := by
  simp only [State.cap, State.divisorWrite_fcr, State.divisorWrite_params]
@[simp] theorem State.divisorWrite_dlab (v : Byte) : (s.divisorWrite v).dlab = s.dlab := by
  simp only [State.dlab, State.divisorWrite_lcr]
@[simp] theorem State.divisorWrite_cursorPos (v : Byte) : (s.divisorWrite v).cursorPos = s.cursorPos := by
  simp only [State.cursorPos, State.divisorWrite_cursorHi, State.divisorWrite_cursorLo]
@[simp] theorem State.fbWrite_thre (i : Instr) (off : FbOffset) (v : Byte) : (s.fbWrite i off v).thre = s.thre := by
  simp only [State.thre, State.fbWrite_txq]
@[simp] theorem State.fbWrite_cap (i : Instr) (off : FbOffset) (v : Byte) : (s.fbWrite i off v).cap = s.cap := by
  simp only [State.cap, State.fbWrite_fcr, State.fbWrite_params]
@[simp] theorem State.fbWrite_dlab (i : Instr) (off : FbOffset) (v : Byte) : (s.fbWrite i off v).dlab = s.dlab := by
  simp only [State.dlab, State.fbWrite_lcr]
@[simp] theorem State.fbWrite_dl (i : Instr) (off : FbOffset) (v : Byte) : (s.fbWrite i off v).dl = s.dl := by
  simp only [State.dl, State.fbWrite_dlHi, State.fbWrite_dlLo]
@[simp] theorem State.fbWrite_cursorPos (i : Instr) (off : FbOffset) (v : Byte) : (s.fbWrite i off v).cursorPos = s.cursorPos := by
  simp only [State.cursorPos, State.fbWrite_cursorHi, State.fbWrite_cursorLo]
@[simp] theorem State.fbRead_thre (i : Instr) (off : FbOffset) : ((s.fbRead i off).2).thre = s.thre := by
  simp only [State.thre, State.fbRead_txq]
@[simp] theorem State.fbRead_cap (i : Instr) (off : FbOffset) : ((s.fbRead i off).2).cap = s.cap := by
  simp only [State.cap, State.fbRead_fcr, State.fbRead_params]
@[simp] theorem State.fbRead_dlab (i : Instr) (off : FbOffset) : ((s.fbRead i off).2).dlab = s.dlab := by
  simp only [State.dlab, State.fbRead_lcr]
@[simp] theorem State.fbRead_dl (i : Instr) (off : FbOffset) : ((s.fbRead i off).2).dl = s.dl := by
  simp only [State.dl, State.fbRead_dlHi, State.fbRead_dlLo]
@[simp] theorem State.fbRead_cursorPos (i : Instr) (off : FbOffset) : ((s.fbRead i off).2).cursorPos = s.cursorPos := by
  simp only [State.cursorPos, State.fbRead_cursorHi, State.fbRead_cursorLo]
@[simp] theorem State.crtcDataWrite_thre (i : Instr) (v : Byte) : (s.crtcDataWrite i v).thre = s.thre := by
  simp only [State.thre, State.crtcDataWrite_txq]
@[simp] theorem State.crtcDataWrite_cap (i : Instr) (v : Byte) : (s.crtcDataWrite i v).cap = s.cap := by
  simp only [State.cap, State.crtcDataWrite_fcr, State.crtcDataWrite_params]
@[simp] theorem State.crtcDataWrite_dlab (i : Instr) (v : Byte) : (s.crtcDataWrite i v).dlab = s.dlab := by
  simp only [State.dlab, State.crtcDataWrite_lcr]
@[simp] theorem State.crtcDataWrite_dl (i : Instr) (v : Byte) : (s.crtcDataWrite i v).dl = s.dl := by
  simp only [State.dl, State.crtcDataWrite_dlHi, State.crtcDataWrite_dlLo]

@[simp] theorem State.draw_value : s.draw.1 = Config.draw8 s.draws := rfl

@[simp] theorem State.lsrRead_value : s.lsrRead.1 = lsrWithThre (Config.draw8 s.draws) s.thre := rfl

end Sys2Proof.Machine
end

