-- ==== Sys2Proof/Laws/Exec.lean ====
section
/-! SUPPORT. What every transaction does, said once: it leads to a next state, and it leaves the parameters, the host's
program, the interleaving and the serial line alone. One equation per shared operation and case. -/

namespace Sys2Proof.Machine

/-! ### One equation per transaction -/

section
variable (s : State) (v : Byte) (off : FbOffset) (port : Port) (w : Word)

theorem exec_uartDataW_divisor (h : s.dlab = true) :
    exec (.uartDataW v) s = .next ((s.divisorWrite v).complete (.uartDataW v) none) := if_pos h

theorem exec_uartDataW_thr (h : s.dlab = false) :
    exec (.uartDataW v) s = .next ((s.thrWrite (.uartDataW v) v).complete (.uartDataW v) none) :=
  if_neg (by simp [h])

theorem exec_uartFcrW : exec (.uartFcrW v) s =
    .next ((s.fcrWrite v).complete (.uartFcrW v) none) := rfl

theorem exec_uartLcrW : exec (.uartLcrW v) s =
    .next ((s.lcrWrite v).complete (.uartLcrW v) none) := rfl

theorem exec_uartLcrR : exec .uartLcrR s =
    .next (s.complete .uartLcrR (some s.lcr)) := rfl

theorem exec_uartMcrW : exec (.uartMcrW v) s =
    .next ({ s with mcr := v }.complete (.uartMcrW v) none) := rfl

theorem exec_uartMcrR : exec .uartMcrR s =
    .next (s.complete .uartMcrR (some s.mcr)) := rfl

theorem exec_uartLsrR : exec .uartLsrR s =
    .next (s.lsrRead.2.complete .uartLsrR (some s.lsrRead.1)) := rfl

theorem exec_crtcIndexW : exec (.crtcIndexW v) s =
    .next ({ s with crtcIndex := some v }.complete (.crtcIndexW v) none) := rfl

theorem exec_crtcDataW : exec (.crtcDataW v) s =
    .next (s.crtcDataWrite (.crtcDataW v) v) := rfl

theorem exec_fbByteW : exec (.fbByteW off v) s =
    .next ((s.fbWrite (.fbByteW off v) off v).complete (.fbByteW off v) none) := rfl

theorem exec_fbByteR : exec (.fbByteR off) s =
    .next ((s.fbRead (.fbByteR off) off).2.complete (.fbByteR off) (some (s.fbRead (.fbByteR off) off).1)) := rfl

theorem exec_uartDataR : exec .uartDataR s = .next (s.refuse .x4UartReceiveRead) := rfl

theorem exec_uartOff1W : exec (.uartOff1W v) s = .next (s.refuse .x3UartReservedOffset) := rfl

theorem exec_uartOff1R : exec .uartOff1R s = .next (s.refuse .x3UartReservedOffset) := rfl

theorem exec_uartOff2R : exec .uartOff2R s = .next (s.refuse .x5UartIirRead) := rfl

theorem exec_uartLsrW : exec (.uartLsrW v) s = .next (s.refuse .x6UartLsrWrite) := rfl

theorem exec_uartOff6W : exec (.uartOff6W v) s = .next (s.refuse .x3UartReservedOffset) := rfl

theorem exec_uartOff6R : exec .uartOff6R s = .next (s.refuse .x3UartReservedOffset) := rfl

theorem exec_uartOff7W : exec (.uartOff7W v) s = .next (s.refuse .x3UartReservedOffset) := rfl

theorem exec_uartOff7R : exec .uartOff7R s = .next (s.refuse .x3UartReservedOffset) := rfl

theorem exec_crtcIndexR : exec .crtcIndexR s = .next (s.refuse .x7CrtcRead) := rfl

theorem exec_crtcDataR : exec .crtcDataR s = .next (s.refuse .x7CrtcRead) := rfl

theorem exec_ioUndecodedW : exec (.ioUndecodedW port v) s = .next (s.refuse .x2UndecodedPort) := rfl

theorem exec_ioUndecodedR : exec (.ioUndecodedR port) s = .next (s.refuse .x2UndecodedPort) := rfl

theorem exec_malformed : exec (.malformed w) s = .next (s.refuse .x1MalformedWord) := rfl

end

/-- Every transaction leads to a next state: the block has no trap (R185). -/
theorem exec_next (i : Instr) (s : State) : ∃ t, exec i s = .next t := by
  cases i
  case uartDataW v =>
    show ∃ t, execUartDataW v s = .next t
    unfold execUartDataW
    split <;> exact ⟨_, rfl⟩
  all_goals exact ⟨_, rfl⟩

/-- What no transaction touches. -/
theorem exec_keeps_host {i : Instr} {s t : State} (h : exec i s = .next t) :
    t.params = s.params ∧ t.pending = s.pending ∧ t.hpos = s.hpos ∧ t.turns = s.turns ∧
      t.turnDraws = s.turnDraws ∧ t.line = s.line := by
  cases i
  case uartDataW v =>
    simp only [exec, execUartDataW] at h
    split at h <;> cases h <;> simp
  all_goals
    simp only [exec, execUartDataR, execUartOff1W, execUartOff1R, execUartFcrW, execUartOff2R, execUartLcrW, execUartLcrR,
      execUartMcrW, execUartMcrR, execUartLsrR, execUartLsrW, execUartOff6W, execUartOff6R, execUartOff7W, execUartOff7R,
      execCrtcIndexW, execCrtcIndexR, execCrtcDataW, execCrtcDataR, execFbByteW, execFbByteR, execIoUndecodedW,
      execIoUndecodedR, execMalformed] at h
    cases h
    simp

theorem exec_keeps_params {i : Instr} {s t : State} (h : exec i s = .next t) : t.params = s.params :=
  (exec_keeps_host h).1

theorem exec_keeps_pending {i : Instr} {s t : State} (h : exec i s = .next t) : t.pending = s.pending :=
  (exec_keeps_host h).2.1

/-! ### The shared operations, case by case -/

section
variable {s : State} {i : Instr} {v : Byte} {off : FbOffset}

/-- R91, room in the queue. -/
theorem thrWrite_accept (h : s.txq.length < s.cap) : s.thrWrite i v = { s with txq := s.txq ++ [v] } := if_pos h

/-- R91, the queue full. -/
theorem thrWrite_drop (h : s.cap ≤ s.txq.length) : s.thrWrite i v = s.raise .f1TxOverrun (.word (encode i)) :=
  if_neg (by omega)

/-- R92, the pointer at HIGH. -/
theorem divisorWrite_high (h : s.dlPtr = .high) : s.divisorWrite v = { s with dlHi := some v, dlPtr := .low } := by
  simp [State.divisorWrite, h]

/-- R92, the pointer at LOW. -/
theorem divisorWrite_low (h : s.dlPtr = .low) : s.divisorWrite v = { s with dlLo := some v, dlPtr := .high } := by
  simp [State.divisorWrite, h]

/-- R95, the queue cleared. -/
theorem fcrWrite_clear (h : fcrFifoe v ≠ s.fcr.fifoEn ∨ fcrTxclr v = true) :
    s.fcrWrite v = { s with txq := [], fcr := fcrRetained v } := by
  simp only [State.fcrWrite, if_pos h]

/-- R95, the queue kept. -/
theorem fcrWrite_keep (h : ¬ (fcrFifoe v ≠ s.fcr.fifoEn ∨ fcrTxclr v = true)) :
    s.fcrWrite v = { s with fcr := fcrRetained v } := by
  simp only [State.fcrWrite, if_neg h]

/-- R157, the index unset. -/
theorem crtcDataWrite_unset (h : s.crtcIndex = none) :
    s.crtcDataWrite i v = (s.raise .f2CrtcIndexUnset (.word (encode i))).complete i none := by
  simp [State.crtcDataWrite, h]

/-- R157, index 14. -/
theorem crtcDataWrite_high (h : s.crtcIndex = some 14) :
    s.crtcDataWrite i v = { s with cursorHi := some v }.complete i none := by
  simp [State.crtcDataWrite, h, Config.crtcCursorHi]

/-- R157, index 15. -/
theorem crtcDataWrite_low (h : s.crtcIndex = some 15) :
    s.crtcDataWrite i v = { s with cursorLo := some v }.complete i none := by
  simp [State.crtcDataWrite, h, Config.crtcCursorHi, Config.crtcCursorLo]

/-- R159, any other index. -/
theorem crtcDataWrite_other {k : Byte} (h : s.crtcIndex = some k) (hi : k ≠ 14) (lo : k ≠ 15) :
    s.crtcDataWrite i v = s.refuse .x8CrtcUnmodelledIndex := by
  have h1 : k ≠ Config.crtcCursorHi := hi
  have h2 : k ≠ Config.crtcCursorLo := lo
  simp [State.crtcDataWrite, h, h1, h2]

/-- R170, inside the framebuffer. -/
theorem fbWrite_inside (h : off.toNat < s.params.fbSize) :
    s.fbWrite i off v = { s with fb := s.fb.write off.toNat v } := if_neg (by omega)

/-- R170, outside the framebuffer. -/
theorem fbWrite_outside (h : s.params.fbSize ≤ off.toNat) :
    s.fbWrite i off v = s.raise .f3FbOutOfRange (.word (encode i)) := if_pos h

/-- R171, a stored byte. -/
theorem fbRead_stored (h : off.toNat < s.params.fbSize) (hr : s.fb.read off.toNat = some v) :
    s.fbRead i off = (v, s) := by
  simp [State.fbRead, hr, Nat.not_le.2 h]

/-- R171, a byte not written since reset. -/
theorem fbRead_unset (h : off.toNat < s.params.fbSize) (hr : s.fb.read off.toNat = none) :
    s.fbRead i off = (s.raise .f4FbUnwritten (.word (encode i))).draw := by
  simp [State.fbRead, hr, Nat.not_le.2 h]

/-- R171, outside the framebuffer. -/
theorem fbRead_outside (h : s.params.fbSize ≤ off.toNat) :
    s.fbRead i off = (s.raise .f3FbOutOfRange (.word (encode i))).draw := if_pos h

end

/-- Bit 5 of the line status is `THRE`, whatever was drawn (R101, R139). -/
@[simp] theorem readyBit_lsrWithThre (drawn : Byte) (thre : Bool) : readyBit (lsrWithThre drawn thre) = thre := by
  have h : ∀ d : BitVec 8, ∀ b : Bool, readyBit (lsrWithThre d b) = b := by decide
  exact h drawn thre

@[simp] theorem lastResult_complete (s : State) (i : Instr) (r : Option Byte) : (s.complete i r).lastResult = r := by
  simp [State.lastResult]

end Sys2Proof.Machine
end

