-- ==== Sys2Proof/Laws/Memory.lean ====
section
/-! SUPPORT. The laws of the framebuffer storage: a read after a write, and the canonical form that every write keeps. -/

namespace Sys2Proof.Machine

@[simp] theorem Memory.read_nil (off : Nat) : Memory.read [] off = none := rfl

theorem Memory.read_cons (a : Nat) (b : Byte) (m : Memory) (off : Nat) :
    Memory.read ((a, b) :: m) off = if off = a then some b else Memory.read m off := rfl

/-- A read after a write to the same offset gives the byte written. -/
@[simp] theorem Memory.read_write_same (m : Memory) (off : Nat) (v : Byte) :
    (m.write off v).read off = some v := by
  induction m with
  | nil => simp [Memory.write, Memory.read]
  | cons c m ih =>
    obtain ⟨a, b⟩ := c
    unfold Memory.write
    split
    · simp [Memory.read]
    · split
      · simp [Memory.read]
      · simp [Memory.read, *]

/-- A write leaves every other offset alone. -/
theorem Memory.read_write_other (m : Memory) {off a : Nat} (v : Byte) (h : a ≠ off) :
    (m.write off v).read a = m.read a := by
  induction m with
  | nil => simp [Memory.write, Memory.read, h]
  | cons c m ih =>
    obtain ⟨a', b⟩ := c
    unfold Memory.write
    split
    · simp [Memory.read, h]
    · split
      · next heq => subst heq; simp [Memory.read, h]
      · simp only [Memory.read, ih]

/-- The canonical form of a list with a first cell: the rest is canonical, and starts higher. -/
theorem Memory.wf_cons (a : Nat) (b : Byte) (m : Memory) :
    Memory.wf ((a, b) :: m) = true ↔ (∀ c ∈ m.head?, a < c.1) ∧ m.wf = true := by
  cases m with
  | nil => simp [Memory.wf]
  | cons c m => obtain ⟨a', b'⟩ := c; simp [Memory.wf]

/-- The first offset after a write is the old first one or the written one. -/
theorem Memory.head_write (m : Memory) (off : Nat) (v : Byte) :
    ∀ c ∈ (m.write off v).head?, c.1 = off ∨ ∃ d ∈ m.head?, d.1 = c.1 := by
  cases m with
  | nil => simp [Memory.write]
  | cons d m =>
    obtain ⟨a, b⟩ := d
    unfold Memory.write
    split
    · simp
    · split <;> simp

/-- A write keeps the canonical form. -/
theorem Memory.wf_write (m : Memory) (off : Nat) (v : Byte) (h : m.wf = true) : (m.write off v).wf = true := by
  induction m with
  | nil => rfl
  | cons c m ih =>
    obtain ⟨a, b⟩ := c
    rw [Memory.wf_cons] at h
    unfold Memory.write
    split
    · next hlt =>
      rw [Memory.wf_cons]
      exact ⟨by simpa using hlt, (Memory.wf_cons a b m).2 h⟩
    · split
      · next heq => subst heq; rw [Memory.wf_cons]; exact h
      · next hge hne =>
        rw [Memory.wf_cons]
        refine ⟨fun c hc => ?_, ih h.2⟩
        obtain heq | ⟨d, hd, heq⟩ := Memory.head_write m off v c hc
        · omega
        · have := h.1 d hd; omega

/-- No byte at or above a bound appears when one is written below it. -/
theorem Memory.write_within (m : Memory) {off bound : Nat} (v : Byte) (hoff : off < bound)
    (h : ∀ a, bound ≤ a → m.read a = none) : ∀ a, bound ≤ a → (m.write off v).read a = none := by
  intro a ha
  rw [Memory.read_write_other m v (by omega)]
  exact h a ha

/-- Below the first offset of a canonical list nothing is stored. -/
theorem Memory.read_below (m : Memory) (h : m.wf = true) {off : Nat} (hlt : ∀ c ∈ m.head?, off < c.1) :
    m.read off = none := by
  induction m with
  | nil => rfl
  | cons c m ih =>
    obtain ⟨a, b⟩ := c
    rw [Memory.wf_cons] at h
    have h0 : off < a := hlt (a, b) (by simp)
    rw [Memory.read_cons, if_neg (by omega)]
    exact ih h.2 fun d hd => by have := h.1 d hd; omega

/-- Two canonical framebuffers that read the same everywhere are equal data. -/
theorem Memory.ext (m n : Memory) (hm : m.wf = true) (hn : n.wf = true) (h : ∀ a, m.read a = n.read a) :
    m = n := by
  induction m generalizing n with
  | nil =>
    cases n with
    | nil => rfl
    | cons c n => obtain ⟨a, b⟩ := c; have := h a; simp [Memory.read] at this
  | cons c m ih =>
    obtain ⟨a, b⟩ := c
    cases n with
    | nil => have := h a; simp [Memory.read] at this
    | cons d n =>
      obtain ⟨a', b'⟩ := d
      have hm' := (Memory.wf_cons a b m).1 hm
      have hn' := (Memory.wf_cons a' b' n).1 hn
      have haa : a = a' := by
        rcases Nat.lt_trichotomy a a' with hlt | heq | hgt
        · have h1 := h a
          rw [Memory.read_below ((a', b') :: n) hn (by simpa using hlt)] at h1
          simp [Memory.read] at h1
        · exact heq
        · have h1 := h a'
          rw [Memory.read_below ((a, b) :: m) hm (by simpa using hgt)] at h1
          simp [Memory.read] at h1
      subst haa
      have hbb : b = b' := by have := h a; simpa [Memory.read] using this
      subst hbb
      rw [ih n hm'.2 hn'.2]
      intro x
      by_cases hx : x = a
      · subst hx
        rw [Memory.read_below m hm'.2 hm'.1, Memory.read_below n hn'.2 hn'.1]
      · have := h x
        simpa [Memory.read, hx] using this

end Sys2Proof.Machine
end

