-- ==== Sys2Proof/Laws/PerInstr.lean ====
section
/-! SUPPORT. One lemma per constructor of `Instr`: the encoding of an instruction carries the fixed bits of its row of the
opcode map (spec/30_encoding.md R75, R77). -/

namespace Sys2Proof.Laws

/-- The row of the opcode map an instruction belongs to accepts the instruction's word, whatever its operands. -/
def EncodesItsRow.Statement (i : Instr) : Prop :=
  ∃ row ∈ opcodeTable, row.number = rowNumber i ∧ row.accepts (encode i) = true

/-- To name the row is to give its place in the map. -/
theorem encodesItsRow_of {i : Instr} (k : Nat) (hk : k < opcodeTable.length)
    (hn : (opcodeTable[k]).number = rowNumber i) (ha : (opcodeTable[k]).accepts (encode i) = true) :
    EncodesItsRow.Statement i := ⟨_, List.getElem_mem hk, hn, ha⟩

/-- The mask of a port write's row drops the data byte. -/
theorem outb_and_portMask (port : Port) (d : Byte) : outb port d &&& 0xFFFFFF00 = outb port 0 := by
  show (_ ++ d) &&& ((0xFFFFFF#24) ++ (0#8)) = _
  rw [BitVec.and_append]
  rw [show (0xFFFFFF#24) = BitVec.allOnes 24 from rfl, BitVec.and_allOnes]
  simp [outb, ioWord]

/-- The mask of a catch-all write's row drops the port and the data byte. -/
theorem outb_and_padMask (port : Port) (d : Byte) : outb port d &&& 0xFF000000 = 0x20000000 := by
  show ((_ ++ port) ++ d) &&& ((0xFF#8 ++ 0#16) ++ 0#8) = _
  rw [BitVec.and_append, BitVec.and_append]
  simp

/-- The mask of a catch-all read's row drops the port. -/
theorem inb_and_padMask (port : Port) : inb port &&& 0xFF0000FF = 0 := by
  show ((_ ++ port) ++ 0#8) &&& ((0xFF#8 ++ 0#16) ++ 0xFF#8) = _
  rw [BitVec.and_append, BitVec.and_append]
  simp

/-- The mask of the framebuffer write's row keeps the space and the direction. -/
theorem fbw_and_mask (off : FbOffset) (d : Byte) : fbw off d &&& 0xE0000000 = 0x60000000 := by
  show ((_ ++ off) ++ d) &&& ((7#3 ++ 0#21) ++ 0#8) = _
  rw [BitVec.and_append, BitVec.and_append]
  simp

/-- The mask of the framebuffer read's row keeps the space, the direction and the zero data byte. -/
theorem fbr_and_mask (off : FbOffset) : fbr off &&& 0xE00000FF = 0x40000000 := by
  show ((_ ++ off) ++ 0#8) &&& ((7#3 ++ 0#21) ++ 0xFF#8) = _
  rw [BitVec.and_append, BitVec.and_append]
  simp

theorem EncodesItsRow.uartDataW (d : Byte) : EncodesItsRow.Statement (.uartDataW d) :=
  encodesItsRow_of 0 (by decide) rfl (beq_iff_eq.2 (outb_and_portMask _ d))

theorem EncodesItsRow.uartDataR : EncodesItsRow.Statement .uartDataR :=
  encodesItsRow_of 1 (by decide) rfl (by decide)

theorem EncodesItsRow.uartOff1W (d : Byte) : EncodesItsRow.Statement (.uartOff1W d) :=
  encodesItsRow_of 2 (by decide) rfl (beq_iff_eq.2 (outb_and_portMask _ d))

theorem EncodesItsRow.uartOff1R : EncodesItsRow.Statement .uartOff1R :=
  encodesItsRow_of 3 (by decide) rfl (by decide)

theorem EncodesItsRow.uartFcrW (d : Byte) : EncodesItsRow.Statement (.uartFcrW d) :=
  encodesItsRow_of 4 (by decide) rfl (beq_iff_eq.2 (outb_and_portMask _ d))

theorem EncodesItsRow.uartOff2R : EncodesItsRow.Statement .uartOff2R :=
  encodesItsRow_of 5 (by decide) rfl (by decide)

theorem EncodesItsRow.uartLcrW (d : Byte) : EncodesItsRow.Statement (.uartLcrW d) :=
  encodesItsRow_of 6 (by decide) rfl (beq_iff_eq.2 (outb_and_portMask _ d))

theorem EncodesItsRow.uartLcrR : EncodesItsRow.Statement .uartLcrR :=
  encodesItsRow_of 7 (by decide) rfl (by decide)

theorem EncodesItsRow.uartMcrW (d : Byte) : EncodesItsRow.Statement (.uartMcrW d) :=
  encodesItsRow_of 8 (by decide) rfl (beq_iff_eq.2 (outb_and_portMask _ d))

theorem EncodesItsRow.uartMcrR : EncodesItsRow.Statement .uartMcrR :=
  encodesItsRow_of 9 (by decide) rfl (by decide)

theorem EncodesItsRow.uartLsrR : EncodesItsRow.Statement .uartLsrR :=
  encodesItsRow_of 10 (by decide) rfl (by decide)

theorem EncodesItsRow.uartLsrW (d : Byte) : EncodesItsRow.Statement (.uartLsrW d) :=
  encodesItsRow_of 11 (by decide) rfl (beq_iff_eq.2 (outb_and_portMask _ d))

theorem EncodesItsRow.uartOff6W (d : Byte) : EncodesItsRow.Statement (.uartOff6W d) :=
  encodesItsRow_of 12 (by decide) rfl (beq_iff_eq.2 (outb_and_portMask _ d))

theorem EncodesItsRow.uartOff6R : EncodesItsRow.Statement .uartOff6R :=
  encodesItsRow_of 13 (by decide) rfl (by decide)

theorem EncodesItsRow.uartOff7W (d : Byte) : EncodesItsRow.Statement (.uartOff7W d) :=
  encodesItsRow_of 14 (by decide) rfl (beq_iff_eq.2 (outb_and_portMask _ d))

theorem EncodesItsRow.uartOff7R : EncodesItsRow.Statement .uartOff7R :=
  encodesItsRow_of 15 (by decide) rfl (by decide)

theorem EncodesItsRow.crtcIndexW (d : Byte) : EncodesItsRow.Statement (.crtcIndexW d) :=
  encodesItsRow_of 16 (by decide) rfl (beq_iff_eq.2 (outb_and_portMask _ d))

theorem EncodesItsRow.crtcIndexR : EncodesItsRow.Statement .crtcIndexR :=
  encodesItsRow_of 17 (by decide) rfl (by decide)

theorem EncodesItsRow.crtcDataW (d : Byte) : EncodesItsRow.Statement (.crtcDataW d) :=
  encodesItsRow_of 18 (by decide) rfl (beq_iff_eq.2 (outb_and_portMask _ d))

theorem EncodesItsRow.crtcDataR : EncodesItsRow.Statement .crtcDataR :=
  encodesItsRow_of 19 (by decide) rfl (by decide)

theorem EncodesItsRow.fbByteW (off : FbOffset) (d : Byte) : EncodesItsRow.Statement (.fbByteW off d) :=
  encodesItsRow_of 20 (by decide) rfl (beq_iff_eq.2 (fbw_and_mask off d))

theorem EncodesItsRow.fbByteR (off : FbOffset) : EncodesItsRow.Statement (.fbByteR off) :=
  encodesItsRow_of 21 (by decide) rfl (beq_iff_eq.2 (fbr_and_mask off))

theorem EncodesItsRow.ioUndecodedW (port : Port) (d : Byte) : EncodesItsRow.Statement (.ioUndecodedW port d) :=
  encodesItsRow_of 22 (by decide) rfl (beq_iff_eq.2 (outb_and_padMask port d))

theorem EncodesItsRow.ioUndecodedR (port : Port) : EncodesItsRow.Statement (.ioUndecodedR port) :=
  encodesItsRow_of 23 (by decide) rfl (beq_iff_eq.2 (inb_and_padMask port))

theorem EncodesItsRow.malformed (w : Word) : EncodesItsRow.Statement (.malformed w) :=
  encodesItsRow_of 24 (by decide) rfl (beq_iff_eq.2 BitVec.and_zero)

end Sys2Proof.Laws
end

