-- ==== Sys2Proof/Laws/Step.lean ====
section
/-! SUPPORT. What a step can do, said once: the inversion lemmas of `step`, `nextMove` and `hostStep`, and the evaluation
lemmas of `run`. -/

namespace Sys2Proof.Machine

/-- Taking a turn changes only the fields of the interleaving. -/
theorem takeTurn_eq (s : State) : ∃ ts n, s.takeTurn.2 = s.setTurns ts n := by
  unfold State.takeTurn
  split
  · exact ⟨_, _, rfl⟩
  · split
    · exact ⟨_, _, rfl⟩
    · exact ⟨s.turns, s.turnDraws, rfl⟩

/-- The observation does not show the interleaving. -/
@[simp] theorem observe_setTurns (s : State) (ts : List Agent) (n : Nat) : (s.setTurns ts n).observe = s.observe := rfl

/-- The observation does not show where the host is in its program. -/
@[simp] theorem observe_advance (s : State) : s.advance.observe = s.observe := rfl

/-- Choosing the next move changes only the fields of the interleaving. -/
theorem nextMove_state (s : State) : ∃ ts n, s.nextMove.2 = s.setTurns ts n := by
  obtain ⟨ts, n, h⟩ := takeTurn_eq s
  unfold State.nextMove
  split
  · exact ⟨s.turns, s.turnDraws, rfl⟩
  · exact ⟨s.turns, s.turnDraws, rfl⟩
  · split <;> (next heq => rw [heq] at h; exact ⟨ts, n, h⟩)
  · split
    · exact ⟨s.turns, s.turnDraws, rfl⟩
    · split <;> (next heq => rw [heq] at h; exact ⟨ts, n, h⟩)

/-- The four moves and when each is possible. -/
theorem nextMove_cases (s : State) :
    (s.nextMove.1 = .host ∧ s.pending ≠ []) ∨ (s.nextMove.1 = .transmitter ∧ s.txEnabled = true) ∨
      (s.nextMove.1 = .stall ∧ s.pending = [] ∧ s.txEnabled = true ∧ s.params.txFair = false) ∨
      (s.nextMove.1 = .ended ∧ s.pending = [] ∧ s.txEnabled = false) := by
  unfold State.nextMove
  split
  · next h1 h2 => simp_all
  · next h1 h2 => simp_all
  · next h1 h2 => split <;> simp_all
  · next h1 h2 =>
    split
    · simp_all
    · split <;> simp_all

/-- A step by the move chosen. -/
theorem step_eq (s : State) (hr : s.refused = none) : step s =
    (match s.nextMove.1 with
    | .host => s.nextMove.2.hostStep
    | .transmitter => .next s.nextMove.2.txStep
    | .stall => .next s.nextMove.2
    | .ended => .fault .runEnded) := by
  simp only [step, hr]
  generalize s.nextMove = m
  obtain ⟨m, t⟩ := m
  cases m <;> rfl

/-- What a step that goes on did. -/
theorem step_cases {s t : State} (h : step s = .next t) :
    s.refused = none ∧ ∃ ts n,
      (s.nextMove.1 = .host ∧ (s.setTurns ts n).hostStep = .next t) ∨
      (s.nextMove.1 = .transmitter ∧ s.txEnabled = true ∧ t = (s.setTurns ts n).txStep) ∨
      (s.nextMove.1 = .stall ∧ t = s.setTurns ts n) := by
  have hr : s.refused = none := by
    cases hr : s.refused with
    | none => rfl
    | some x => simp [step, hr] at h
  obtain ⟨ts, n, hm⟩ := nextMove_state s
  refine ⟨hr, ts, n, ?_⟩
  rw [step_eq s hr, hm] at h
  obtain ⟨hc, -⟩ | ⟨hc, he⟩ | ⟨hc, -⟩ | ⟨hc, -⟩ := nextMove_cases s <;> simp only [hc] at h
  · exact .inl ⟨hc, h⟩
  · cases h; exact .inr (.inl ⟨hc, he, rfl⟩)
  · cases h; exact .inr (.inr ⟨hc, rfl⟩)
  · cases h

/-- What the host's side of a step did. -/
theorem hostStep_cases {s t : State} (h : s.hostStep = .next t) :
    (∃ w rest u, s.pending = .transaction w :: rest ∧ exec (decode w) s = .next u ∧ t = u.afterTransaction) ∨
    (∃ rest, s.pending = .pollTxReady :: rest ∧
      t = (s.lsrRead.2.complete .uartLsrR (some s.lsrRead.1)).afterPoll) ∨
    (∃ off rest, s.pending = .cellCheck off :: rest ∧ t = s.cellCheckStep off) := by
  unfold State.hostStep at h
  split at h
  · cases h
  · next w rest hp =>
    obtain ⟨u, hu⟩ := exec_next (decode w) s
    rw [hu] at h
    cases h
    exact .inl ⟨w, rest, u, hp, hu, rfl⟩
  · next rest hp =>
    cases h
    exact .inr (.inl ⟨rest, hp, rfl⟩)
  · next off rest hp =>
    cases h
    exact .inr (.inr ⟨off, rest, hp, rfl⟩)

/-- Where the host advances past a poll (R140). -/
theorem afterPoll_complete (s : State) (r : Byte) :
    (s.complete .uartLsrR (some r)).afterPoll =
      if readyBit r then (s.complete .uartLsrR (some r)).advance else s.complete .uartLsrR (some r) := by
  simp [State.afterPoll]

/-- With the queue empty and an operation left, the host moves and no turn is used. -/
theorem step_host_idle {s : State} (hr : s.refused = none) (hq : s.txq = []) (hp : s.pending ≠ []) :
    step s = s.hostStep := by
  have h1 : s.pending.isEmpty = false := by simpa using hp
  have h2 : s.txEnabled = false := by simp [State.txEnabled, hq]
  simp [step, hr, State.nextMove, h1, h2]

/-- A poll with the queue empty is answered ready, and the host moves past it (R140). -/
theorem step_poll_ready {s : State} {rest : List HostOp} (hr : s.refused = none) (hq : s.txq = [])
    (hp : s.pending = .pollTxReady :: rest) :
    step s = .next (s.lsrRead.2.complete .uartLsrR (some s.lsrRead.1)).advance := by
  have ht : s.thre = true := by simp [State.thre, hq]
  rw [step_host_idle hr hq (by simp [hp])]
  simp only [State.hostStep, hp, exec_uartLsrR, mapNext, afterPoll_complete, State.lsrRead_value, readyBit_lsrWithThre, ht]
  rfl

/-- With the host's turn listed next, the host moves. -/
theorem step_host_turn {s : State} {ts : List Agent} (hr : s.refused = none) (hq : s.txq ≠ []) (hp : s.pending ≠ [])
    (ht : s.turns = .host :: ts) : step s = (s.setTurns ts s.turnDraws).hostStep := by
  have h1 : s.pending.isEmpty = false := by simpa using hp
  have h2 : s.txEnabled = true := by simp [State.txEnabled, hq, hr]
  simp [step, hr, State.nextMove, h1, h2, State.takeTurn, ht]

/-- With the transmitter's turn listed next, the transmitter moves. -/
theorem step_transmitter_turn {s : State} {ts : List Agent} (hr : s.refused = none) (hq : s.txq ≠ [])
    (hp : s.pending ≠ []) (ht : s.turns = .transmitter :: ts) :
    step s = .next (s.setTurns ts s.turnDraws).txStep := by
  have h1 : s.pending.isEmpty = false := by simpa using hp
  have h2 : s.txEnabled = true := by simp [State.txEnabled, hq, hr]
  simp [step, hr, State.nextMove, h1, h2, State.takeTurn, ht]

/-- With the host done and the transmitter fair, the transmitter moves. -/
theorem step_transmitter_fair {s : State} (hr : s.refused = none) (hq : s.txq ≠ []) (hp : s.pending = [])
    (hf : s.params.txFair = true) : step s = .next s.txStep := by
  have h2 : s.txEnabled = true := by simp [State.txEnabled, hq, hr]
  simp [step, hr, State.nextMove, hp, h2, hf]

/-- An unblocked transmitter step (R122). -/
theorem txStep_emit {s : State} {v : Byte} {rest : List Byte} {d : BitVec 16} (hq : s.txq = v :: rest)
    (hl : mcrLoop s.mcr = false) (hb : lcrBrk s.lcr = false) (hd : s.dl = some d) (h0 : d ≠ 0) :
    s.txStep = { s with txq := rest, line := s.line ++ [⟨v, lcrFmt s.lcr, d⟩] } := by
  have : s.txBlock = none := by
    simp only [State.txBlock, hl, hb, hd]
    simpa using h0
  simp [State.txStep, hq, this, hd]

/-- A blocked transmitter step sets the mark and nothing else (R123). -/
theorem txStep_blocked {s : State} {x : RefusalCode} (hq : s.txq ≠ []) (hx : s.txBlock = some x) :
    s.txStep = s.refuse x := by
  unfold State.txStep
  split
  · contradiction
  · simp [hx]

@[simp] theorem run_zero (s : State) : run 0 s = .next s := rfl

/-- A run's first step. -/
theorem run_succ_next {k : Nat} {s u : State} (h : step s = .next u) : run (k + 1) s = run k u := by
  simp [run, Host.Core.run, Sys2Proof.core, h]

/-- A run that goes on took a first step. -/
theorem run_succ_inv {k : Nat} {s t : State} (h : run (k + 1) s = .next t) :
    ∃ u, step s = .next u ∧ run k u = .next t := by
  cases hs : step s with
  | next u => exact ⟨u, rfl, by rw [← run_succ_next hs]; exact h⟩
  | fault r => simp [run, Host.Core.run, Sys2Proof.core, hs] at h
  | refused r => simp [run, Host.Core.run, Sys2Proof.core, hs] at h

/-- Runs compose. -/
theorem run_add {j k : Nat} {s t u : State} (h1 : run j s = .next t) (h2 : run k t = .next u) :
    run (j + k) s = .next u := by
  induction j generalizing s with
  | zero => cases h1; simpa using h2
  | succ j ih =>
    obtain ⟨v, hv, hr⟩ := run_succ_inv h1
    rw [Nat.add_right_comm, run_succ_next hv]
    exact ih hr

/-- A property that holds of a state and that every step keeps holds along a run. -/
theorem run_invariant {P : State → Prop} (hstep : ∀ s t, P s → step s = .next t → P t) {k : Nat} {s t : State}
    (hs : P s) (h : run k s = .next t) : P t := by
  induction k generalizing s with
  | zero => cases h; exact hs
  | succ k ih =>
    obtain ⟨u, hu, hr⟩ := run_succ_inv h
    exact ih (hstep s u hs hu) hr

/-- Transactions issued in a row: the first, then the rest. -/
theorem execWords_cons {w : Word} {ws : List Word} {s t : State} (h : exec (decode w) s = .next t) :
    execWords (w :: ws) s = execWords ws t := by
  simp [execWords, h]

end Sys2Proof.Machine
end

