-- ==== Sys2Proof/Tests/Slice0.lean ====
section
/-! SUPPORT. Tests: ill-formed terms are refused, words written out from the spec's fields decode, single transactions and
steps give the vectors of spec/95_test_vectors.md, and every statement with hypotheses has a witness that meets them.
Expected values are the spec's vectors (the section is named) or worked out by hand from the rule named. -/

namespace Sys2Proof.Tests

open Sys2Proof Sys2Proof.Machine

/-! ### States the tests start from -/

/-- The reset state with the parameters the vectors assume (spec/95_test_vectors.md, opening). -/
def bare : State := { State.reset with params := ⟨16, 4000, 0, true⟩ }

/-- A UART configured with divisor 1 (spec/42_uart_sequences.md R136). -/
def ready : State :=
  { bare with lcr := 0x03, dlHi := some 0x00, dlLo := some 0x01, fcr := ⟨true, false, 0b11⟩, mcr := 0x03 }

/-- The state an answer leads to; the tests use it only where the answer is a next state. -/
def landed (a : Answer) : State :=
  match a with
  | .next t => t
  | _ => bare

/-- Whether an answer is a next state. -/
def goesOn (a : Answer) : Bool :=
  match a with
  | .next _ => true
  | _ => false

/-- The state one transaction word leads to. -/
def after (w : Word) (s : State) : State := landed (exec (decode w) s)

/-- The state the words of a sequence lead to, with no transmitter step between. -/
def afterAll (ws : List Word) (s : State) : State := landed (execWords ws s)

theorem next_of_goesOn {a : Answer} (h : goesOn a = true) : a = .next (landed a) := by
  cases a with
  | next t => rfl
  | fault r => cases h
  | refused r => cases h

/-! ### WellFormed refuses ill-formed terms (R73, R75, R78) -/

theorem test_wellformed_refuses_undecoded_write_to_decoded_port : WellFormed (.ioUndecodedW 0x3FB 0x80) = false := by
  decide

theorem test_wellformed_refuses_undecoded_read_of_decoded_port : WellFormed (.ioUndecodedR 0x3D4) = false := by decide

theorem test_wellformed_refuses_malformed_with_a_good_word : WellFormed (.malformed 0x2003FB80) = false := by decide

theorem test_wellformed_accepts_each_catch_all : WellFormed (.ioUndecodedW 0x0060 0x00) = true ∧
    WellFormed (.ioUndecodedR 0x02F8) = true ∧ WellFormed (.malformed 0x0003FD01) = true := by decide

/-- An ill-formed term does not survive the round trip: its word belongs to another row. -/
theorem test_ill_formed_words_belong_to_other_rows :
    decode (encode (.ioUndecodedW 0x3FB 0x80)) = .uartLcrW 0x80 ∧
    decode (encode (.ioUndecodedR 0x3D4)) = .crtcIndexR ∧
    decode (encode (.malformed 0x2003FB80)) = .uartLcrW 0x80 := by decide

/-! ### Decoding words written out field by field: SP, W, PAD, PORT, DATA or SP, W, OFF, DATA (R70) -/

theorem test_decode_uart_data : decode (0b00#2 ++ 0b1#1 ++ 0b00000#5 ++ 0b0000001111111000#16 ++ 0b01100001#8) =
      .uartDataW 0x61 ∧
    decode (0b00#2 ++ 0b0#1 ++ 0b00000#5 ++ 0b0000001111111000#16 ++ 0b00000000#8) = .uartDataR := by decide

theorem test_decode_uart_off1 : decode (0b00#2 ++ 0b1#1 ++ 0b00000#5 ++ 0b0000001111111001#16 ++ 0b00001111#8) =
      .uartOff1W 0x0F ∧
    decode (0b00#2 ++ 0b0#1 ++ 0b00000#5 ++ 0b0000001111111001#16 ++ 0b00000000#8) = .uartOff1R := by decide

theorem test_decode_uart_off2 : decode (0b00#2 ++ 0b1#1 ++ 0b00000#5 ++ 0b0000001111111010#16 ++ 0b11000111#8) =
      .uartFcrW 0xC7 ∧
    decode (0b00#2 ++ 0b0#1 ++ 0b00000#5 ++ 0b0000001111111010#16 ++ 0b00000000#8) = .uartOff2R := by decide

theorem test_decode_uart_lcr : decode (0b00#2 ++ 0b1#1 ++ 0b00000#5 ++ 0b0000001111111011#16 ++ 0b10000000#8) =
      .uartLcrW 0x80 ∧
    decode (0b00#2 ++ 0b0#1 ++ 0b00000#5 ++ 0b0000001111111011#16 ++ 0b00000000#8) = .uartLcrR := by decide

theorem test_decode_uart_mcr : decode (0b00#2 ++ 0b1#1 ++ 0b00000#5 ++ 0b0000001111111100#16 ++ 0b00000011#8) =
      .uartMcrW 0x03 ∧
    decode (0b00#2 ++ 0b0#1 ++ 0b00000#5 ++ 0b0000001111111100#16 ++ 0b00000000#8) = .uartMcrR := by decide

theorem test_decode_uart_lsr : decode (0b00#2 ++ 0b0#1 ++ 0b00000#5 ++ 0b0000001111111101#16 ++ 0b00000000#8) =
      .uartLsrR ∧
    decode (0b00#2 ++ 0b1#1 ++ 0b00000#5 ++ 0b0000001111111101#16 ++ 0b00100000#8) = .uartLsrW 0x20 := by decide

theorem test_decode_uart_off6 : decode (0b00#2 ++ 0b1#1 ++ 0b00000#5 ++ 0b0000001111111110#16 ++ 0b00000001#8) =
      .uartOff6W 0x01 ∧
    decode (0b00#2 ++ 0b0#1 ++ 0b00000#5 ++ 0b0000001111111110#16 ++ 0b00000000#8) = .uartOff6R := by decide

theorem test_decode_uart_off7 : decode (0b00#2 ++ 0b1#1 ++ 0b00000#5 ++ 0b0000001111111111#16 ++ 0b01010101#8) =
      .uartOff7W 0x55 ∧
    decode (0b00#2 ++ 0b0#1 ++ 0b00000#5 ++ 0b0000001111111111#16 ++ 0b00000000#8) = .uartOff7R := by decide

theorem test_decode_crtc_index : decode (0b00#2 ++ 0b1#1 ++ 0b00000#5 ++ 0b0000001111010100#16 ++ 0b00001110#8) =
      .crtcIndexW 0x0E ∧
    decode (0b00#2 ++ 0b0#1 ++ 0b00000#5 ++ 0b0000001111010100#16 ++ 0b00000000#8) = .crtcIndexR := by decide

theorem test_decode_crtc_data : decode (0b00#2 ++ 0b1#1 ++ 0b00000#5 ++ 0b0000001111010101#16 ++ 0b00010010#8) =
      .crtcDataW 0x12 ∧
    decode (0b00#2 ++ 0b0#1 ++ 0b00000#5 ++ 0b0000001111010101#16 ++ 0b00000000#8) = .crtcDataR := by decide

theorem test_decode_framebuffer : decode (0b01#2 ++ 0b1#1 ++ 0b000000000000010100000#21 ++ 0b01000010#8) =
      .fbByteW 0xA0 0x42 ∧
    decode (0b01#2 ++ 0b0#1 ++ 0b100000000000000000001#21 ++ 0b00000000#8) = .fbByteR 0x100001 := by decide

theorem test_decode_undecoded : decode (0b00#2 ++ 0b1#1 ++ 0b00000#5 ++ 0b0000000001100000#16 ++ 0b11111111#8) =
      .ioUndecodedW 0x60 0xFF ∧
    decode (0b00#2 ++ 0b0#1 ++ 0b00000#5 ++ 0b0000001011111000#16 ++ 0b00000000#8) = .ioUndecodedR 0x2F8 := by decide

theorem test_decode_malformed : decode (0b10#2 ++ 0b1#1 ++ 0b00000#5 ++ 0b0000001111111000#16 ++ 0b00000000#8) =
      .malformed 0xA003F800 ∧
    decode (0b00#2 ++ 0b1#1 ++ 0b10000#5 ++ 0b0000001111111000#16 ++ 0b00000000#8) = .malformed 0x3003F800 := by decide

/-- R75: the all-zero word, which row 25's own pattern shows, is taken by row 24, which stands above it. -/
theorem test_decode_zero_word_is_row_24 : decodeTableWord 32 0 = some (.ioUndecodedR 0) := by decide

/-- The host's numbering is the word's own, and no transaction is longer than one word (R70). -/
theorem test_decodeTableWord : decodeTableWord 32 0x2003FB80 = some (.uartLcrW 0x80) ∧ decodeTableWord 40 0 = none := by
  decide

/-! ### UART transactions (spec/95_test_vectors.md 2.2 to 2.6) -/

theorem test_data_write_fills_the_last_place :
    let t := after 0x2003F862 { ready with txq := List.replicate 15 0x61 }
    t.txq = List.replicate 15 0x61 ++ [0x62] ∧ t.thre = false ∧ t.faults = .empty := by decide

theorem test_data_write_full_raises_F1 :
    let t := after 0x2003F842 { bare with txq := [0x41] }
    t.txq = [0x41] ∧ t.faultLog = [⟨.f1TxOverrun, .word 0x2003F842⟩] ∧ t.faults.f1 = true ∧ t.refused = none := by decide

/-- Vector 2.3, line 2. -/
theorem test_divisor_bytes_alternate :
    let t := afterAll [0x2003FB80, 0x2003F801, 0x2003F880, 0x2003F805] bare
    t.dlHi = some 0x05 ∧ t.dlLo = some 0x80 ∧ t.dlPtr = .low ∧ t.dl = some 0x0580 ∧ t.txq = [] := by decide

/-- Vector 2.3, line 4. -/
theorem test_lcr_write_resets_the_pointer :
    let t := afterAll [0x2003FB80, 0x2003F800, 0x2003FB80, 0x2003F803] bare
    t.dlHi = some 0x03 ∧ t.dlLo = none ∧ t.dlPtr = .low ∧ t.dl = none := by decide

/-- Vector 2.4, lines 3 and 7. -/
theorem test_fcr_write_keeps_the_queue :
    let t := after 0x2003FA01 { ready with txq := [0x61, 0x62] }
    let u := after 0x2003FA09 { ready with txq := [0x61] }
    t.fcr = ⟨true, false, 0b00⟩ ∧ t.txq = [0x61, 0x62] ∧ u.fcr = ⟨true, true, 0b00⟩ ∧ u.txq = [0x61] := by decide

/-- Vector 2.4, lines 4 and 5. -/
theorem test_fcr_write_clears_the_queue :
    let t := after 0x2003FA00 { ready with txq := [0x61] }
    let u := after 0x2003FA06 { bare with txq := [0x61] }
    t.fcr = ⟨false, false, 0b00⟩ ∧ t.txq = [] ∧ u.fcr = ⟨false, false, 0b00⟩ ∧ u.txq = [] := by decide

/-- Vector 2.5. -/
theorem test_lcr_reads_back : (afterAll [0x2003FB83, 0x0003FB00] bare).lastResult = some 0x83 := by decide

/-- Vector 2.5: bits 7:5 are stored. -/
theorem test_mcr_reads_back : (afterAll [0x2003FCE3, 0x0003FC00] bare).lastResult = some 0xE3 := by decide

/-- Example S2 of the source. -/
theorem test_readyBit : [0x20, 0x60, 0xFF, 0x00, 0xDF, 0x1F].map readyBit = [true, true, true, false, false, false] := by
  decide

/-- R101: bit 5 is `THRE`, the other bits are the draw's. -/
theorem test_lsr_bits : lsrWithThre 0x1F true = 0x3F ∧ lsrWithThre 0xFF false = 0xDF := by decide

theorem test_lsr_read_goes_on : goesOn (exec .uartLsrR ready) = true ∧ (landed (exec .uartLsrR ready)).draws = 1 := by
  decide

theorem test_uart_refusals : [0x0003F800, 0x2003F90F, 0x0003F900, 0x0003FA00, 0x2003FD20, 0x2003FE01, 0x0003FE00,
      0x2003FF55, 0x0003FF00].map (fun w => (after w bare).refused) =
    [some .x4UartReceiveRead, some .x3UartReservedOffset, some .x3UartReservedOffset, some .x5UartIirRead,
      some .x6UartLsrWrite, some .x3UartReservedOffset, some .x3UartReservedOffset, some .x3UartReservedOffset,
      some .x3UartReservedOffset] := by decide

theorem test_catch_all_refusals : [0x20006000, 0x0002F800, 0x2103FB00].map (fun w => (after w bare).refused) =
    [some .x2UndecodedPort, some .x2UndecodedPort, some .x1MalformedWord] := by decide

/-! ### The transmitter (spec/95_test_vectors.md 2.7) -/

theorem test_txStep_emits :
    let t := { ready with txq := [0x61, 0x62] }.txStep
    t.txq = [0x62] ∧ t.line = [⟨0x61, 0x03, 0x0001⟩] ∧ t.thre = false := by decide

theorem test_txStep_refusals : [{ ready with txq := [0x61], mcr := 0x13 }, { ready with txq := [0x61], lcr := 0x43 },
      { ready with txq := [0x61], lcr := 0x43, mcr := 0x13 }, { ready with txq := [0x61], dlLo := none },
      { ready with txq := [0x61], dlLo := some 0 }].map (·.txStep.refused) =
    [some .x9TxLoopback, some .x10TxBreak, some .x9TxLoopback, some .x11TxDivisor, some .x11TxDivisor] := by decide

/-! ### VGA transactions (spec/95_test_vectors.md 2.10, 2.11) -/

theorem test_crtc_data_with_index_unset :
    let t := after 0x2003D512 bare
    t.faultLog = [⟨.f2CrtcIndexUnset, .word 0x2003D512⟩] ∧ t.cursorHi = none := by decide

theorem test_crtc_data_with_other_index : (afterAll [0x2003D40A, 0x2003D500] bare).refused = some .x8CrtcUnmodelledIndex := by
  decide

theorem test_crtc_index_takes_any_value :
    let t := after 0x2003D4FF bare
    t.crtcIndex = some 0xFF ∧ t.faults = .empty ∧ t.refused = none := by decide

theorem test_crtc_reads_refused : (after 0x0003D400 bare).refused = some .x7CrtcRead ∧
    (after 0x0003D500 bare).refused = some .x7CrtcRead := by decide

/-- Example S5 of the source. -/
theorem test_move_cursor :
    moveCursorWords 0x1234 = [0x2003D40E, 0x2003D512, 0x2003D40F, 0x2003D534] ∧
    (afterAll (moveCursorWords 0x1234) bare).cursorPos = some 0x1234 := by decide

theorem test_fb_write_last_byte :
    (after 0x600F9F07 bare).fb.read 3999 = some 0x07 ∧ (after 0x600FA007 bare).fb = [] ∧
    (after 0x600FA007 bare).faultLog = [⟨.f3FbOutOfRange, .word 0x600FA007⟩] := by decide

theorem test_fb_write_keeps_the_form :
    (afterAll [0x60000902, 0x60000401, 0x60000405] bare).fb = [(4, 0x05), (9, 0x02)] := by decide

theorem test_fb_read_faults :
    (after 0x400FA000 bare).faults = ⟨false, false, true, false, false⟩ ∧
    (after 0x40000500 bare).faults = ⟨false, false, false, true, false⟩ ∧
    (afterAll [0x60000128, 0x40000100] bare).lastResult = some 0x28 := by decide

theorem test_attribute : packAttr 0x1F 0x3A = 0xFA ∧ packAttr 0x2 0x8 = 0x28 ∧ packAttr 0x0 0xF = 0x0F := by decide

/-- `WRITE_CELL 3` issues nothing and raises F5; `WRITE_CELL 160` is its two words. -/
theorem test_write_cell :
    (landed (step { bare with pending := writeCell 3 0x78 1 2 })).faultLog = [⟨.f5CellMisaligned, .offset 3⟩] ∧
    writeCell 160 0x42 0xF 0x1 = [.transaction 0x6000A042, .transaction 0x6000A1F1] := by decide

/-- Vector 2.9. -/
theorem test_configure_words : configureWords 0x0180 =
    [0x2003FB80, 0x2003F801, 0x2003F880, 0x2003FB03, 0x2003FAC7, 0x2003FC03] := by decide

/-! ### Steps -/

/-- The word the host places is the first that runs after reset, with the free parameters as they are. -/
theorem test_placed_word_runs_after_reset :
    (landed (step (State.reset.withFetchWord 32 0x2003FB80))).lcr = 0x80 ∧
    goesOn (step (State.reset.withFetchWord 32 0x60000041)) = true ∧
    goesOn (step (State.reset.withFetchWord 32 0x40000000)) = true := by decide

/-- R189: after a refusal there is no step. -/
theorem test_no_step_after_a_refusal : goesOn (step { ready with refused := some .x7CrtcRead, txq := [0x61] }) = false := by
  decide

/-- The listed turns decide between the agents. -/
theorem test_turns :
    (landed (step { ready with txq := [0x61], turns := [.transmitter], pending := [.transaction 0x2003F862] })).txq = [] ∧
    (landed (step { ready with txq := [0x61], turns := [.host], pending := [.transaction 0x2003F862] })).txq =
      [0x61, 0x62] := by decide

/-! ### Witnesses: for every statement with hypotheses, a state and operands that meet them, one per clause at a boundary -/

/-- The states the witnesses of the invariant and of the runs start from: the host writes LCR first. -/
def aboutToWriteLcr : State := { bare with pending := [.transaction 0x2003FB80] }

theorem witness_ResetMeetsInvariant_elsewhere : Inv aboutToWriteLcr :=
  ⟨by decide, by decide, by decide, fun _ _ => rfl, by intro c; cases c <;> decide, by decide, by decide⟩

theorem witness_StepKeepsInvariant : ∃ s t, Inv s ∧ step s = .next t :=
  ⟨_, _, witness_ResetMeetsInvariant_elsewhere, next_of_goesOn (by decide)⟩

theorem witness_StepOnlyExtendsHistory : ∃ s t, step s = .next t ∧ s.faults.has .f2CrtcIndexUnset = true :=
  ⟨{ aboutToWriteLcr with faults := { FaultSet.empty with f2 := true } }, _, next_of_goesOn (by decide), rfl⟩

theorem witness_DecodeInvertsEncode : WellFormed (.ioUndecodedW 0x3F7 0xFF) = true ∧
    WellFormed (.ioUndecodedR 0x400) = true ∧ WellFormed (.malformed 0xFFFFFFFF) = true ∧
    WellFormed (.fbByteW 0x1FFFFF 0xFF) = true := by decide

/-- A word for each clause of `IllegalWordsAreRefused`: the reserved spaces, a pad bit, read data, a port next to a
decoded one, and each refused direction. -/
theorem witness_IllegalWordsAreRefused :
    (0x80000000#32).extractLsb' 30 2 = 2#2 ∧ (0xC0000000#32).extractLsb' 30 2 = 3#2 ∧
    (0x2103FB00#32).extractLsb' 24 5 ≠ 0#5 ∧ (0x0003FD01#32).extractLsb' 0 8 ≠ 0#8 ∧
    malformedWord 0x20040000 = false ∧ (0x20040000#32).extractLsb' 8 16 ∉ decodedPorts ∧
    malformedWord 0x2003F900 = false ∧ (0x2003F900#32).extractLsb' 8 16 = 0x3F9#16 ∧
    malformedWord 0x0003F800 = false ∧ (0x0003F800#32).extractLsb' 8 16 = 0x3F8#16 ∧
    malformedWord 0x0003FA00 = false ∧ (0x0003FA00#32).extractLsb' 8 16 = 0x3FA#16 ∧
    malformedWord 0x2003FD00 = false ∧ (0x2003FD00#32).extractLsb' 8 16 = 0x3FD#16 ∧
    malformedWord 0x0003D500 = false ∧ (0x0003D500#32).extractLsb' 8 16 = 0x3D5#16 := by decide

theorem witness_ThrWriteEnqueuesOrDrops :
    let room : State := { ready with txq := List.replicate 15 0x61 }
    let full : State := { bare with txq := [0x41] }
    room.lcr.getLsbD 7 = false ∧ room.txq.length < room.cap ∧
      full.lcr.getLsbD 7 = false ∧ full.cap ≤ full.txq.length ∧ full.params.ok := by decide

theorem witness_DivisorWriteFollowsPointer :
    let high : State := { bare with lcr := 0x80 }
    let low : State := { bare with lcr := 0xFF, dlPtr := .low }
    high.lcr.getLsbD 7 = true ∧ high.dlPtr = .high ∧ low.lcr.getLsbD 7 = true ∧ low.dlPtr = .low := by decide

theorem witness_FcrWriteClearsAndRetains :
    (0x01#8).getLsbD 0 ≠ bare.fcr.fifoEn ∧ (0x04#8).getLsbD 2 = true ∧ (0xFB#8).getLsbD 0 = ready.fcr.fifoEn ∧
      (0xFB#8).getLsbD 2 = false ∧ ready.txq.length ≤ ready.cap := by decide

theorem witness_CrtcDataWriteFollowsIndex :
    bare.crtcIndex = none ∧ ({ bare with crtcIndex := some 14 } : State).crtcIndex = some 14 ∧
      ({ bare with crtcIndex := some 15 } : State).crtcIndex = some 15 ∧ (13 : Byte) ≠ 14 ∧ (13 : Byte) ≠ 15 ∧
      (16 : Byte) ≠ 14 ∧ (16 : Byte) ≠ 15 ∧
      ({ bare with crtcIndex := some 16 } : State).crtcIndex = some 16 := by decide

theorem witness_CursorPosIsThePair :
    let both : State := { bare with cursorHi := some 0xFF, cursorLo := some 0x00 }
    both.cursorHi = some 0xFF ∧ both.cursorLo = some 0x00 ∧ bare.cursorHi = none ∧
      ({ bare with cursorHi := some 0x12 } : State).cursorLo = none := by decide

theorem witness_FbWriteStoresOrFaults :
    (3999#21).toNat < bare.params.fbSize ∧ bare.params.fbSize ≤ (4000#21).toNat := by decide

theorem witness_FbReadReturnsOrFaults :
    bare.params.fbSize ≤ (4000#21).toNat ∧ (3999#21).toNat < bare.params.fbSize ∧ bare.fb.read (3999#21).toNat = none ∧
      ({ bare with fb := [(3999, 0x07)] } : State).fb.read (3999#21).toNat = some 0x07 := by decide

theorem witness_FbReadReturnsLastWrite :
    ∃ t, (3999#21).toNat < bare.params.fbSize ∧
      (∀ w ∈ [fbw 3998 0x01, outb 0x3F8 0x61], ∀ u, decode w ≠ .fbByteW 3999 u) ∧
      execWords [fbw 3999 0x07, fbw 3998 0x01, outb 0x3F8 0x61] bare = .next t := by
  refine ⟨_, by decide, ?_, next_of_goesOn (by decide)⟩
  intro w hw u
  simp only [List.mem_cons, List.not_mem_nil, or_false] at hw
  obtain rfl | rfl := hw
  · rw [show decode (fbw 3998 0x01) = .fbByteW 3998 0x01 by decide]
    intro h
    injection h with h
    exact absurd h (by decide)
  · rw [show decode (outb 0x3F8 0x61) = .uartDataW 0x61 by decide]
    intro h
    cases h

theorem witness_TransactionsKeepTheOtherPart :
    (∃ t, exec (.uartDataW 0x61) bare = .next t) ∧ isUart (.uartDataW 0x61) = true ∧ isUart .uartOff7R = true ∧
    (∃ t, exec (.fbByteR 0) bare = .next t) ∧ isVga (.fbByteR 0) = true ∧ isVga (.crtcIndexW 0) = true ∧
    rowNumber (.fbByteR 0) ≠ 21 ∧ (∃ t, exec (.malformed 0xFFFFFFFF) bare = .next t) ∧
    isUart (.malformed 0xFFFFFFFF) = false ∧ isVga (.malformed 0xFFFFFFFF) = false :=
  ⟨⟨_, next_of_goesOn (by decide)⟩, by decide, by decide, ⟨_, next_of_goesOn (by decide)⟩, by decide, by decide,
    by decide, ⟨_, next_of_goesOn (by decide)⟩, by decide, by decide⟩

/-- A transaction that changes each register named. -/
theorem witness_RegistersChangeOnlyByTheirWrites :
    (after 0x2003FB80 bare).lcr ≠ bare.lcr ∧ (after 0x2003FC03 bare).mcr ≠ bare.mcr ∧
    (after 0x2003F801 { bare with lcr := 0x80 }).dlHi ≠ none ∧ (after 0x2003F801 { bare with lcr := 0x80 }).dlPtr ≠ .high ∧
    (after 0x2003F801 { bare with lcr := 0x80, dlPtr := .low }).dlLo ≠ none ∧ (after 0x2003FAC7 bare).fcr ≠ bare.fcr ∧
    (after 0x2003F861 bare).txq ≠ bare.txq ∧ (after 0x2003D40E bare).crtcIndex ≠ none ∧
    (after 0x2003D512 { bare with crtcIndex := some 14 }).cursorHi ≠ none ∧
    (after 0x2003D534 { bare with crtcIndex := some 15 }).cursorLo ≠ none ∧
    (after 0x60000041 bare).fb.read 0 ≠ bare.fb.read 0 := by decide

/-- Two states that differ in the UART alone, and two that differ in the display interface alone. -/
theorem witness_PartsDoNotInfluenceEachOther :
    (∃ t t', exec (.fbByteW 0 0x41) bare = .next t ∧ exec (.fbByteW 0 0x41) ready = .next t' ∧
      bare.params = ready.params ∧ bare.draws = ready.draws ∧ bare.trace = ready.trace ∧ SameVga bare ready ∧
      SameOutcomes bare ready ∧ bare.lcr ≠ ready.lcr) ∧
    (∃ s t t', exec (.uartDataW 0x41) bare = .next t ∧ exec (.uartDataW 0x41) s = .next t' ∧
      bare.params = s.params ∧ bare.draws = s.draws ∧ bare.trace = s.trace ∧ SameUart bare s ∧ SameOutcomes bare s ∧
      bare.crtcIndex ≠ s.crtcIndex) :=
  ⟨⟨_, _, next_of_goesOn (by decide), next_of_goesOn (by decide), rfl, rfl, rfl, ⟨rfl, rfl, rfl, rfl⟩,
      ⟨rfl, rfl, rfl⟩, by decide⟩,
    { bare with crtcIndex := some 14 }, _, _, next_of_goesOn (by decide), next_of_goesOn (by decide), rfl, rfl, rfl,
      ⟨rfl, rfl, rfl, rfl, rfl, rfl, rfl, rfl⟩, ⟨rfl, rfl, rfl⟩, by decide⟩

theorem witness_AtMostOneFaultOrRefusal :
    (∃ t, exec (.uartLcrW 0x80) bare = .next t) ∧ (∃ t, exec (.crtcDataW 0x12) bare = .next t) ∧
      ∃ t, exec .crtcDataR bare = .next t :=
  ⟨⟨_, next_of_goesOn (by decide)⟩, ⟨_, next_of_goesOn (by decide)⟩, ⟨_, next_of_goesOn (by decide)⟩⟩

theorem witness_RefusalStopsEveryAgent :
    ({ bare with refused := some .x1MalformedWord } : State).refused = some .x1MalformedWord ∧
      bare.refused = none ∧ (landed (exec .uartDataR bare)).refused ≠ none ∧
      ({ bare with txq := [0x61] } : State).refused = none ∧
      ({ bare with txq := [0x61] } : State).txStep.refused ≠ none := by decide

theorem witness_TxStepMovesTheHead :
    let s : State := { ready with txq := [0x61] }
    s.refused = none ∧ s.txq = 0x61 :: [] ∧ s.mcr.getLsbD 4 = false ∧ s.lcr.getLsbD 6 = false ∧
      s.dlHi = some 0x00 ∧ s.dlLo = some 0x01 ∧ ¬ ((0x00 : Byte) = 0 ∧ (0x01 : Byte) = 0) := by decide

theorem witness_TxStepRefusalsInOrder :
    let loop : State := { ready with txq := [0x61], mcr := 0x10, lcr := 0x40 }
    let brk : State := { ready with txq := [0x61], lcr := 0x40 }
    let zero : State := { ready with txq := [0x61], dlLo := some 0 }
    ready.refused = none ∧ ready.txq = [] ∧
      loop.refused = none ∧ loop.txq ≠ [] ∧ loop.mcr.getLsbD 4 = true ∧
      brk.refused = none ∧ brk.txq ≠ [] ∧ brk.mcr.getLsbD 4 = false ∧ brk.lcr.getLsbD 6 = true ∧
      zero.refused = none ∧ zero.txq ≠ [] ∧ zero.mcr.getLsbD 4 = false ∧ zero.lcr.getLsbD 6 = false ∧
      zero.dlHi = some 0 ∧ zero.dlLo = some 0 := by decide

theorem witness_BaudIsExactQuotient :
    ready.dlHi = some 0x00 ∧ ready.dlLo = some 0x01 ∧ ¬ ((0x00 : Byte) = 0 ∧ (0x01 : Byte) = 0) ∧ bare.dlHi = none ∧
      ({ ready with dlLo := some 0 } : State).dlLo = some 0 := by decide

theorem witness_StepRunsDecodedTransaction :
    aboutToWriteLcr.refused = none ∧ aboutToWriteLcr.pending = .transaction 0x2003FB80 :: [] ∧ aboutToWriteLcr.txq = [] ∧
      ({ aboutToWriteLcr with txq := [0x61], turns := [.host] } : State).txq ≠ [] ∧
      ({ aboutToWriteLcr with txq := [0x61], turns := [.host] } : State).turns = .host :: [] := by decide

theorem witness_StepRunsPlacedWord : State.reset.refused = none ∧ ({ ready with txq := [0x61] } : State).refused = none := by
  decide

theorem witness_EitherAgentMayStepNext :
    let s : State := { aboutToWriteLcr with txq := [0x61] }
    s.refused = none ∧ s.txq ≠ [] ∧ s.pending = .transaction 0x2003FB80 :: [] := by decide

theorem witness_PollAdvancesOnlyWhenEmpty :
    let idle : State := { ready with pending := [.pollTxReady] }
    let busy : State := { ready with pending := [.pollTxReady], txq := [0x61], turns := [.host] }
    idle.refused = none ∧ idle.pending = .pollTxReady :: [] ∧ idle.txq = [] ∧
      busy.refused = none ∧ busy.pending = .pollTxReady :: [] ∧ busy.txq ≠ [] ∧ busy.turns = .host :: [] := by decide

theorem witness_OddCellFaultsAndWritesNothing :
    (0x1FFFFF#21).toNat % 2 = 1 ∧
      ({ bare with pending := writeCell 0x1FFFFF 0x78 1 2 } : State).pending = writeCell 0x1FFFFF 0x78 1 2 ++ [] ∧
      (0x1FFFFE#21).toNat % 2 = 0 := by decide

theorem witness_RunEndsExactlyWhenDrained :
    ready.refused = none ∧ ready.pending = [] ∧ ready.txq = [] ∧ aboutToWriteLcr.refused = none ∧
      aboutToWriteLcr.pending ≠ [] := by decide

/-- A step of each kind that moves `THRE`: an accepted data write, the last byte leaving, a clearing FCR write. -/
theorem witness_ThreChangesOnlyAsListed :
    let write : State := { ready with pending := [.transaction 0x2003F861] }
    let drain : State := { ready with txq := [0x61] }
    let clear : State := { ready with pending := [.transaction 0x2003FAC7], txq := [0x61, 0x62], turns := [.host] }
    (goesOn (step write) = true ∧ write.thre = true ∧ (landed (step write)).thre = false) ∧
      (goesOn (step drain) = true ∧ drain.thre = false ∧ (landed (step drain)).thre = true) ∧
      (goesOn (step clear) = true ∧ clear.thre = false ∧ (landed (step clear)).thre = true) := by decide

theorem witness_BytesLeaveInOrder :
    goesOn (step { ready with txq := [0x61] }) = true ∧
      goesOn (step { ready with pending := [.transaction 0x2003F861] }) = true := by decide

/-- A configured UART with a buffer of one byte to write. -/
def aboutToWriteByte : State := { ready with pending := writeBytes [0x61] }

theorem witness_WriteAfterReadyPollIsAccepted :
    aboutToWriteByte.params.ok ∧ aboutToWriteByte.lcr.getLsbD 7 = false ∧
      aboutToWriteByte.pending = .pollTxReady :: .transaction (outb 0x3F8 0x61) :: [] ∧
      ∃ t, step aboutToWriteByte = .next t ∧ t.pending = .transaction (outb 0x3F8 0x61) :: [] :=
  ⟨by decide, by decide, rfl, _, step_poll_ready rfl rfl rfl, rfl⟩

/-- The six transactions with a transmitter step before the first. -/
theorem witness_ConfigureUnderEveryInterleaving :
    let s : State := { ready with pending := configure 0x0180, txq := [0x61], turns := [.transmitter] }
    s.refused = none ∧ s.pending = configure 0x0180 ∧ ∃ t, run 7 s = .next t ∧ t.pending = [] :=
  ⟨by decide, by decide, _, next_of_goesOn (by decide), by decide⟩

theorem witness_ConfiguredFor : ConfiguredFor 0x0001 ready := by
  refine ⟨⟨?_, ?_, ?_, ?_, ?_⟩, ?_, ?_⟩ <;> decide

theorem witness_WriteNeverDropsAByte :
    aboutToWriteByte.params.ok ∧ aboutToWriteByte.refused = none ∧ ConfiguredFor 0x0001 aboutToWriteByte ∧
      aboutToWriteByte.pending = writeBytes [0x61] ∧ ∃ t, run 2 aboutToWriteByte = .next t := by
  refine ⟨by decide, by decide, witness_ConfiguredFor, rfl, ?_⟩
  rw [run_succ_next (step_poll_ready rfl rfl rfl)]
  exact ⟨_, next_of_goesOn (by decide)⟩

theorem witness_FairWriteDeliversTheBuffer :
    aboutToWriteByte.params.ok ∧ aboutToWriteByte.refused = none ∧ Fair aboutToWriteByte ∧
      ConfiguredFor 0x0001 aboutToWriteByte ∧ aboutToWriteByte.pending = writeBytes [0x61] :=
  ⟨by decide, by decide, rfl, witness_ConfiguredFor, rfl⟩

theorem witness_UnpolledBurstDropsTheExcess : ready.lcr.getLsbD 7 = false ∧ ready.txq = [] := by decide

theorem witness_CellRoundTrip : bare.params.ok ∧ (3998#21).toNat % 2 = 0 ∧ (3998#21).toNat < bare.params.fbSize ∧
    (3999#21).toNat = (3998#21).toNat + 1 := by decide

theorem witness_CellPastTheEndFaultsTwice : (4000#21).toNat % 2 = 0 ∧ bare.params.fbSize ≤ (4000#21).toNat ∧
    (4001#21).toNat = (4000#21).toNat + 1 ∧ (0x1FFFFF#21).toNat = (0x1FFFFE#21).toNat + 1 := by decide

/-- A configured UART with a full queue and nothing left for the host to do. -/
def draining : State := { ready with txq := List.replicate 16 0x61 }

theorem witness_FairQueueDrains : Fair draining ∧ draining.refused = none ∧ draining.pending = [] ∧
    draining.mcr.getLsbD 4 = false ∧ draining.lcr.getLsbD 6 = false ∧ draining.dl = some 0x0001 ∧
    (0x0001 : BitVec 16) ≠ 0 :=
  ⟨rfl, by decide, by decide, by decide, by decide, by decide, by decide⟩

theorem witness_FairTransmitterMoves : Fair draining ∧ draining.txEnabled = true := ⟨rfl, by decide⟩

theorem witness_FairRunsStop : Fair aboutToWriteByte := rfl

theorem witness_UnfairTransmitterMayStall :
    let done : State := { draining with params := ⟨16, 4000, 0, false⟩, turns := [.host, .host] }
    let polling : State := { done with pending := [.pollTxReady] }
    done.refused = none ∧ done.txq ≠ [] ∧ done.params.txFair = false ∧ done.turns = List.replicate 2 .host ∧
      done.pending = [] ∧ polling.turns = List.replicate 2 .host ∧ polling.pending = .pollTxReady :: [] := by decide

theorem witness_TransmitBeforeConfigureIsRefused :
    let s : State := { bare with dlHi := some 0x00, pending := [.transaction (outb 0x3F8 0x61)] }
    AtReset bare ∧ s.refused = none ∧ s.lcr.getLsbD 7 = false ∧ s.lcr.getLsbD 6 = false ∧ s.mcr.getLsbD 4 = false ∧
      s.txq = [] ∧ 1 ≤ s.cap ∧ s.dlLo = none ∧ s.pending = .transaction (outb 0x3F8 0x61) :: [] :=
  ⟨rfl, by decide, by decide, by decide, by decide, by decide, by decide, by decide, by decide⟩

theorem witness_WriteEndsWithItsLastByteQueued :
    aboutToWriteByte.params.ok ∧ aboutToWriteByte.refused = none ∧ ConfiguredFor 0x0001 aboutToWriteByte ∧
      aboutToWriteByte.pending = writeBytes ([] ++ [0x61]) ∧ NoFault aboutToWriteByte ∧
      ∃ u t, run 1 aboutToWriteByte = .next u ∧ IssuesLast u t := by
  refine ⟨by decide, by decide, witness_ConfiguredFor, rfl, ⟨by decide, by decide⟩, _, _,
    run_succ_next (step_poll_ready rfl rfl rfl), ?_, next_of_goesOn (by decide), by decide⟩
  decide

end Sys2Proof.Tests
end

section
/-! PROOFS. What is derived from a pair of bytes: the cursor position (spec/10_state.md R41) and, through the divisor
(R24), the baud (R31). First the pair itself, then one lemma per derived value for each way its bytes can stand. -/

namespace Sys2Proof.Machine

/-! ### A pair of bytes (R10) -/

section
variable (h l : Byte)

@[simp] theorem pair_toNat : (pair h l).toNat = h.toNat * 256 + l.toNat := by
  rw [pair, BitVec.toNat_append, ← Nat.shiftLeft_add_eq_or_of_lt l.isLt, Nat.shiftLeft_eq]

@[simp] theorem pair_highByte : (pair h l).extractLsb' 8 8 = h := BitVec.extractLsb'_append_eq_left

@[simp] theorem pair_lowByte : (pair h l).extractLsb' 0 8 = l := BitVec.extractLsb'_append_eq_right

theorem pair_eq_zero_iff : pair h l = 0 ↔ h = 0 ∧ l = 0 := by
  constructor
  · intro hz
    exact ⟨by rw [← pair_highByte h l, hz]; rfl, by rw [← pair_lowByte h l, hz]; rfl⟩
  · rintro ⟨rfl, rfl⟩
    rfl

end

variable {s : State} {h l : Byte} {d : BitVec 16}

/-! ### The cursor position (R41) -/

theorem State.cursorPos_of_set (hh : s.cursorHi = some h) (hl : s.cursorLo = some l) :
    s.cursorPos = some (pair h l) := by
  rw [State.cursorPos, hh, hl]

theorem State.cursorPos_of_unset (hu : s.cursorHi = none ∨ s.cursorLo = none) : s.cursorPos = none := by
  obtain hh | hl := hu
  · rw [State.cursorPos, hh]
  · rw [State.cursorPos, hl]
    cases s.cursorHi <;> rfl

/-! ### The divisor (R24) and the baud (R31) -/

theorem State.dl_of_set (hh : s.dlHi = some h) (hl : s.dlLo = some l) : s.dl = some (pair h l) := by
  rw [State.dl, hh, hl]

theorem State.dl_of_unset (hu : s.dlHi = none ∨ s.dlLo = none) : s.dl = none := by
  obtain hh | hl := hu
  · rw [State.dl, hh]
  · rw [State.dl, hl]
    cases s.dlHi <;> rfl

theorem State.baud_of_dl_ne_zero (hd : s.dl = some d) (hz : d ≠ 0) :
    s.baud = some ((Config.baudClock : Rat) / (d.toNat : Rat)) := by
  rw [State.baud, hd]
  exact if_neg hz

theorem State.baud_of_dl_zero (hd : s.dl = some 0) : s.baud = none := by
  rw [State.baud, hd]
  rfl

theorem State.baud_of_dl_unset (hd : s.dl = none) : s.baud = none := by
  rw [State.baud, hd]

/-- A nonzero divisor divides exactly, whether or not it is a divisor of the clock as a natural number. -/
theorem baudClock_div_mul_cancel (hz : d ≠ 0) :
    (Config.baudClock : Rat) / (d.toNat : Rat) * (d.toNat : Rat) = 115200 := by
  have hne : (d.toNat : Rat) ≠ 0 := fun h0 => hz (BitVec.eq_of_toNat_eq (Rat.natCast_eq_zero_iff.mp h0))
  exact Rat.div_mul_cancel hne

/-! ### The obligations -/

/-- Settles O23: the two set bytes are the halves of the position, and either one unset leaves it unset. -/
theorem cursorPosIsThePair : Obligations.CursorPosIsThePair := by
  intro s
  constructor
  · intro h l hh hl
    exact ⟨pair h l, State.cursorPos_of_set hh hl, pair_highByte h l, pair_lowByte h l, pair_toNat h l⟩
  · exact State.cursorPos_of_unset

/-- Settles O34: a set divisor is zero exactly when both its bytes are, and only by a nonzero one is the clock divided. -/
theorem baudIsExactQuotient : Obligations.BaudIsExactQuotient := by
  intro s
  constructor
  · intro h l hh hl hz
    have hne : pair h l ≠ 0 := mt (pair_eq_zero_iff h l).mp hz
    refine ⟨_, State.baud_of_dl_ne_zero (State.dl_of_set hh hl) hne, ?_⟩
    rw [← pair_toNat]
    exact baudClock_div_mul_cancel hne
  · rintro (hh | hl | ⟨hh, hl⟩)
    · exact State.baud_of_dl_unset (State.dl_of_unset (.inl hh))
    · exact State.baud_of_dl_unset (State.dl_of_unset (.inr hl))
    · exact State.baud_of_dl_zero (State.dl_of_set hh hl)

end Sys2Proof.Machine
end

section
/-! PROOFS. The encoding (spec/30_encoding.md): the words of the assembler forms (R80), and the words refused with X1 to X7
(R78). The decoder first, one equation per format and direction; then the ports the block refuses, direction by direction. -/

namespace Sys2Proof

/-! ### The assembler forms (R80) -/

/-- The zero pad below the direction takes it from bit 24 to bit 29. -/
theorem ioWord_eq_or (wr : Bool) (port : Port) (v : Byte) :
    ioWord wr port v =
      (BitVec.ofBool wr).setWidth 32 <<< 29 ||| port.setWidth 32 <<< 8 ||| v.setWidth 32 := by
  rw [← BitVec.setWidth_eq (ioWord wr port v), ioWord, BitVec.setWidth_append_append_eq_shiftLeft_setWidth_or]
  cases wr <;> rfl

theorem fbWord_eq_or (wr : Bool) (off : FbOffset) (v : Byte) :
    fbWord wr off v =
      (1#2 ++ BitVec.ofBool wr).setWidth 32 <<< 29 ||| off.setWidth 32 <<< 8 ||| v.setWidth 32 := by
  rw [← BitVec.setWidth_eq (fbWord wr off v), fbWord, BitVec.setWidth_append_append_eq_shiftLeft_setWidth_or]

/-- Settles O8: each form is its direction, its port or offset and its byte at their places; a read's byte and the direction
of a port read are zero. -/
theorem assemblerFormsGiveTheirWords : Obligations.AssemblerFormsGiveTheirWords := by
  intro port off v
  refine ⟨ioWord_eq_or true port v, ?_, fbWord_eq_or true off v, ?_⟩
  · rw [inb, ioWord_eq_or]
    simp
  · rw [fbr, fbWord_eq_or]
    simp

/-! ### The decoder, by format and direction (R76, R78) -/

section
variable {w : Word}

/-- X1 of R78: a reserved space, a pad bit in format IO, or a data byte in a read. -/
theorem decode_malformed (h : wordSp w = 2 ∨ wordSp w = 3 ∨ (wordSp w = 0 ∧ wordPad w ≠ 0#5) ∨
    (wordIsWrite w = false ∧ wordData w ≠ 0#8)) : decode w = .malformed w := by
  unfold decode
  obtain hsp | hsp | ⟨hsp, hpad⟩ | ⟨hr, hdata⟩ := h
  · exact if_pos (.inl hsp)
  · exact if_pos (.inr hsp)
  · simp [hsp, hpad]
  · simp [hr, hdata]

theorem decode_portWrite (hsp : wordSp w = 0) (hpad : wordPad w = 0) (hw : wordIsWrite w = true) :
    decode w = decodePortWrite (wordPort w) (wordData w) := by
  simp [decode, hsp, hpad, hw]

theorem decode_portRead (hsp : wordSp w = 0) (hpad : wordPad w = 0) (hr : wordIsWrite w = false)
    (hdata : wordData w = 0) : decode w = decodePortRead (wordPort w) := by
  simp [decode, hsp, hpad, hr, hdata]

end

section
variable {port : Port}

/-- `decodedPorts` lists by number the ports that the decoder tests by name. -/
theorem ne_of_notMem_decodedPorts (h : port ∉ decodedPorts) :
    port ≠ Config.uartPort 0 ∧ port ≠ Config.uartPort 1 ∧ port ≠ Config.uartPort 2 ∧ port ≠ Config.uartPort 3 ∧
      port ≠ Config.uartPort 4 ∧ port ≠ Config.uartPort 5 ∧ port ≠ Config.uartPort 6 ∧ port ≠ Config.uartPort 7 ∧
      port ≠ Config.crtcCmdPort ∧ port ≠ Config.crtcDataPort := by
  simp only [decodedPorts, List.mem_cons, List.not_mem_nil, or_false, not_or] at h
  exact h

/-- X2 of R78: an access to an undecoded port is row 23's or row 24's. -/
theorem decodePortWrite_undecoded (h : port ∉ decodedPorts) (v : Byte) :
    decodePortWrite port v = .ioUndecodedW port v := by
  simp only [decodePortWrite, ne_of_notMem_decodedPorts h, if_false]

theorem decodePortRead_undecoded (h : port ∉ decodedPorts) : decodePortRead port = .ioUndecodedR port := by
  simp only [decodePortRead, ne_of_notMem_decodedPorts h, if_false]

end

end Sys2Proof

namespace Sys2Proof.Machine

/-! ### The refused ports (R78) -/

section
variable (s : State) {port : Port}

/-- X3: both directions of a reserved UART offset. -/
theorem exec_portWrite_reserved (h : port = 0x3F9 ∨ port = 0x3FE ∨ port = 0x3FF) (v : Byte) :
    exec (decodePortWrite port v) s = .next (s.refuse .x3UartReservedOffset) := by
  obtain rfl | rfl | rfl := h
  · exact exec_uartOff1W s v
  · exact exec_uartOff6W s v
  · exact exec_uartOff7W s v

theorem exec_portRead_reserved (h : port = 0x3F9 ∨ port = 0x3FE ∨ port = 0x3FF) :
    exec (decodePortRead port) s = .next (s.refuse .x3UartReservedOffset) := by
  obtain rfl | rfl | rfl := h
  · exact exec_uartOff1R s
  · exact exec_uartOff6R s
  · exact exec_uartOff7R s

/-- X7: a read of either CRT-controller port. -/
theorem exec_portRead_crtc (h : port = 0x3D4 ∨ port = 0x3D5) :
    exec (decodePortRead port) s = .next (s.refuse .x7CrtcRead) := by
  obtain rfl | rfl := h
  · exact exec_crtcIndexR s
  · exact exec_crtcDataR s

end

/-- Settles O10: a malformed word decodes to row 25; any other word of the IO space is a port access whose direction and port
name the row, and the rows of R78 only refuse. -/
theorem illegalWordsAreRefused : Obligations.IllegalWordsAreRefused := by
  intro w s sp isWrite pad port data isMalformed
  constructor
  · intro hm
    rw [decode_malformed hm]
    exact exec_malformed s w
  · intro hm hsp
    obtain ⟨-, -, hpad, hdata⟩ : _ ∧ _ ∧ _ ∧ _ := by
      simpa only [isMalformed, not_or, not_and, Decidable.not_not] using hm
    have hwrite : isWrite = true → decode w = decodePortWrite port data := decode_portWrite hsp (hpad hsp)
    have hread : isWrite = false → decode w = decodePortRead port :=
      fun hr => decode_portRead hsp (hpad hsp) hr (hdata hr)
    refine ⟨?x2, ?x3, ?x4, ?x5, ?x6, ?x7⟩
    case x2 =>
      intro hport
      cases hdir : isWrite
      · rw [hread hdir, decodePortRead_undecoded hport]
        exact exec_ioUndecodedR s port
      · rw [hwrite hdir, decodePortWrite_undecoded hport]
        exact exec_ioUndecodedW s data port
    case x3 =>
      intro hport
      cases hdir : isWrite
      · rw [hread hdir]
        exact exec_portRead_reserved s hport
      · rw [hwrite hdir]
        exact exec_portWrite_reserved s hport data
    case x4 =>
      intro hport hr
      rw [hread hr, hport]
      exact exec_uartDataR s
    case x5 =>
      intro hport hr
      rw [hread hr, hport]
      exact exec_uartOff2R s
    case x6 =>
      intro hport hw
      rw [hwrite hw, hport]
      exact exec_uartLsrW s data
    case x7 =>
      intro hport hr
      rw [hread hr]
      exact exec_portRead_crtc s hport

end Sys2Proof.Machine
end

section
/-! PROOFS. The UART's register transactions (spec/40_uart_registers.md): first the words they are recorded under and what the
derived `THRE` and `CAP` say, then one obligation per register. -/

namespace Sys2Proof.Machine

/-! ### The words of the register writes (R77) -/

section
variable (v : Byte)

theorem encode_uartDataW : encode (.uartDataW v) = 0x2003F800 ||| v.setWidth 32 := ioWord_eq_or true 0x3F8 v

theorem encode_uartFcrW : encode (.uartFcrW v) = 0x2003FA00 ||| v.setWidth 32 := ioWord_eq_or true 0x3FA v

theorem encode_uartLcrW : encode (.uartLcrW v) = 0x2003FB00 ||| v.setWidth 32 := ioWord_eq_or true 0x3FB v

theorem encode_uartMcrW : encode (.uartMcrW v) = 0x2003FC00 ||| v.setWidth 32 := ioWord_eq_or true 0x3FC v

end

variable {s : State} {v : Byte}

/-! ### `THRE` (R27) and `CAP` (R29) -/

theorem State.thre_eq_true_iff : s.thre = true ↔ s.txq = [] := List.isEmpty_iff

theorem State.thre_eq_false_iff : s.thre = false ↔ s.txq ≠ [] := List.isEmpty_eq_false_iff

/-- A depth of at least 1, which R8 asks for, leaves room for a byte whether or not the FIFO is enabled. -/
theorem State.cap_pos (hok : s.params.ok) : 0 < s.cap := by
  obtain ⟨hdepth, -⟩ := hok
  rw [State.cap]
  split
  · exact hdepth
  · exact Nat.one_pos

/-- An FCR write that leaves the enable as it is leaves the capacity. -/
theorem fcrWrite_cap_of_same_enable (h : fcrFifoe v = s.fcr.fifoEn) : (s.fcrWrite v).cap = s.cap := by
  simp only [State.cap, State.fcrWrite_fcr, State.fcrWrite_params, fcrRetained, h]

/-! ### The line status byte (R101) -/

/-- Bit 5 is put in and the mask keeps the other seven. -/
theorem getLsbD_lsrWithThre {k : Nat} (drawn : Byte) (thre : Bool) (hk : k < 8) :
    (lsrWithThre drawn thre).getLsbD k = if k = 5 then thre else drawn.getLsbD k := by
  have hmask : 0xDF#8 = ~~~BitVec.twoPow 8 5 := by decide
  have hbit : 0x20#8 = BitVec.twoPow 8 5 := by decide
  rw [lsrWithThre, hmask, hbit]
  by_cases h5 : k = 5
  · subst h5
    cases thre <;> simp
  · cases thre <;> simp [hk, h5]

/-! ### The obligations -/

/-- Settles O11: the two ends of the comparison with `CAP` are the two equations of `thrWrite`, and a full queue of an admitted
depth is not empty. -/
theorem thrWriteEnqueuesOrDrops : Obligations.ThrWriteEnqueuesOrDrops := by
  intro s v hdlab word cap
  have hexec := exec_uartDataW_thr s v hdlab
  constructor
  · intro hroom
    rw [thrWrite_accept hroom] at hexec
    refine ⟨_, hexec, ?_, ?_⟩
    · exact State.thre_eq_false_iff.mpr (List.append_ne_nil_of_right_ne_nil _ (List.cons_ne_nil _ _))
    · rw [State.complete, encode_uartDataW]
  · intro hfull
    rw [thrWrite_drop hfull] at hexec
    refine ⟨_, hexec, rfl, ?_, ?_⟩
    · intro hok
      have hlen : 0 < s.txq.length := Nat.lt_of_lt_of_le (State.cap_pos hok) hfull
      exact State.thre_eq_false_iff.mpr (List.ne_nil_of_length_pos hlen)
    · rw [State.complete, encode_uartDataW]
      rfl

/-- Settles O12: the two values of the pointer are the two equations of `divisorWrite`. -/
theorem divisorWriteFollowsPointer : Obligations.DivisorWriteFollowsPointer := by
  intro s v hdlab word
  have hexec := exec_uartDataW_divisor s v hdlab
  rw [State.complete, encode_uartDataW] at hexec
  constructor
  · intro hptr
    rw [hexec, divisorWrite_high hptr]
  · intro hptr
    rw [hexec, divisorWrite_low hptr]

/-- Settles O13: a cleared queue is within any capacity, and a kept one is within the capacity it had, since the enable that
decides it is the same. -/
theorem fcrWriteClearsAndRetains : Obligations.FcrWriteClearsAndRetains := by
  intro s v word retained
  have hexec := exec_uartFcrW s v
  constructor
  · intro hclear
    rw [fcrWrite_clear hclear] at hexec
    refine ⟨_, hexec, rfl, Nat.zero_le _, ?_⟩
    rw [State.complete, encode_uartFcrW]
    rfl
  · intro hsame hkept
    have hkeep : ¬(fcrFifoe v ≠ s.fcr.fifoEn ∨ fcrTxclr v = true) := by
      rintro (hchange | htxclr)
      · exact hchange hsame
      · exact Bool.false_ne_true (hkept.symm.trans htxclr)
    refine ⟨_, hexec, ?_, ?_⟩
    · rw [State.complete_cap, fcrWrite_cap_of_same_enable hsame, State.complete_txq, fcrWrite_keep hkeep]
      exact id
    · rw [fcrWrite_keep hkeep, State.complete, encode_uartFcrW]
      rfl

/-- Settles O14: the write is `lcrWrite` under its own word, and the read changes only the trace. -/
theorem lcrWriteAndRead : Obligations.LcrWriteAndRead := by
  intro s v
  constructor
  · rw [exec_uartLcrW, State.complete, encode_uartLcrW]
    rfl
  · exact exec_uartLcrR s

/-- Settles O15: each output is a bit of the byte just stored. -/
theorem mcrWriteAndRead : Obligations.McrWriteAndRead := by
  intro s v
  constructor
  · refine ⟨_, exec_uartMcrW s v, ?_, rfl, rfl, rfl, rfl⟩
    rw [State.complete, encode_uartMcrW]
  · exact exec_uartMcrR s

/-- Settles O16: the byte read is the draw but for bit 5, which is `THRE`, and so is its readiness. -/
theorem lsrReadReturnsThre : Obligations.LsrReadReturnsThre := by
  intro s
  refine ⟨lsrWithThre (Config.draw8 s.draws) s.thre, exec_uartLsrR s, ?_, ?_, ?_⟩
  · rw [getLsbD_lsrWithThre _ _ (by decide), if_pos rfl]
    exact State.thre_eq_true_iff
  · intro k hk h5
    rw [getLsbD_lsrWithThre _ _ hk, if_neg h5]
  · rw [readyBit_lsrWithThre]
    exact State.thre_eq_true_iff

/-- Settles O17: each of the nine is `refuse` with its own code, with no test of DLAB before it. -/
theorem unmodelledUartAccessesRefuse : Obligations.UnmodelledUartAccessesRefuse := by
  intro s v
  exact ⟨exec_uartDataR s, exec_uartOff1W s v, exec_uartOff1R s, exec_uartOff2R s, exec_uartLsrW s v, exec_uartOff6W s v,
    exec_uartOff6R s, exec_uartOff7W s v, exec_uartOff7R s⟩

end Sys2Proof.Machine
end

section
/-! PROOFS. `CONFIGURE d` (spec/42_uart_sequences.md R135 to R137), without transmitter steps: what each of its port writes
does at the head of a row, then the divisor programmed under DLAB = 1 (transactions 1 to 3) and the line, FIFO and modem set
(transactions 4 to 6), each from any state. -/

namespace Sys2Proof.Machine

/-! ### UART register writes at the head of a row -/

/-- The register named by the port is written, then the rest of the row runs. -/
theorem execWords_outb {port : Port} {v : Byte} {ws : List Word} {s t : State}
    (h : exec (decodePortWrite port v) s = .next t) : execWords (outb port v :: ws) s = execWords ws t := by
  apply execWords_cons
  rw [decode_outb]
  exact h

section
variable (s : State) (v : Byte) (ws : List Word)

theorem execWords_outb_lcr :
    execWords (outb 0x3FB v :: ws) s = execWords ws ((s.lcrWrite v).complete (.uartLcrW v) none) :=
  execWords_outb (exec_uartLcrW s v)

theorem execWords_outb_fcr :
    execWords (outb 0x3FA v :: ws) s = execWords ws ((s.fcrWrite v).complete (.uartFcrW v) none) :=
  execWords_outb (exec_uartFcrW s v)

theorem execWords_outb_mcr :
    execWords (outb 0x3FC v :: ws) s = execWords ws ({ s with mcr := v }.complete (.uartMcrW v) none) :=
  execWords_outb (exec_uartMcrW s v)

theorem execWords_outb_divisor (h : s.dlab = true) :
    execWords (outb 0x3F8 v :: ws) s = execWords ws ((s.divisorWrite v).complete (.uartDataW v) none) :=
  execWords_outb (exec_uartDataW_divisor s v h)

end

/-! ### The two halves of the sequence (R136) -/

/-- Two data writes under DLAB = 1, from the pointer at HIGH, write the divisor's two bytes and come back to HIGH. -/
theorem execWords_outb_divisor_pair {s : State} (hdlab : s.dlab = true) (hptr : s.dlPtr = .high) (h l : Byte)
    (ws : List Word) :
    execWords (outb 0x3F8 h :: outb 0x3F8 l :: ws) s = execWords ws { s with
      dlHi := some h, dlLo := some l, dlPtr := .high
      trace := s.trace ++ [outb 0x3F8 h, outb 0x3F8 l].map (⟨·, none⟩) } := by
  rw [execWords_outb_divisor _ _ _ hdlab, divisorWrite_high hptr, execWords_outb_divisor, divisorWrite_low rfl]
  · simp [State.complete, encode]
  · exact hdlab

/-- Transactions 1 to 3: the LCR write sets DLAB and puts the pointer at HIGH, as the two divisor bytes need it. -/
theorem execWords_programDivisor (s : State) (h l : Byte) (ws : List Word) :
    execWords (outb 0x3FB 0x80 :: outb 0x3F8 h :: outb 0x3F8 l :: ws) s = execWords ws { s with
      lcr := 0x80, dlHi := some h, dlLo := some l, dlPtr := .high
      trace := s.trace ++ [outb 0x3FB 0x80, outb 0x3F8 h, outb 0x3F8 l].map (⟨·, none⟩) } := by
  have hdlab : ((s.lcrWrite 0x80).complete (.uartLcrW 0x80) none).dlab = true := by
    rw [State.complete_dlab, State.dlab, State.lcrWrite_lcr]
    decide
  rw [execWords_outb_lcr, execWords_outb_divisor_pair hdlab rfl]
  simp [State.complete, State.lcrWrite, encode]

/-- Transactions 4 to 6: the FCR byte 0xC7 has TXCLR set, so that the queue is cleared whatever the enable was. -/
theorem execWords_setLineFifoModem (s : State) :
    execWords [outb 0x3FB 0x03, outb 0x3FA 0xC7, outb 0x3FC 0x03] s = .next { s with
      lcr := 0x03, dlPtr := .high, fcr := ⟨true, false, 3#2⟩, mcr := 0x03, txq := []
      trace := s.trace ++ [outb 0x3FB 0x03, outb 0x3FA 0xC7, outb 0x3FC 0x03].map (⟨·, none⟩) } := by
  have hretained : fcrRetained 0xC7 = ⟨true, false, 3#2⟩ := by decide
  rw [execWords_outb_lcr, execWords_outb_fcr, fcrWrite_clear (.inr rfl), hretained, execWords_outb_mcr]
  simp [execWords, State.complete, State.lcrWrite, encode]

theorem execWords_configureWords (s : State) (d : BitVec 16) :
    execWords (configureWords d) s = .next { s with
      lcr := 0x03, dlHi := some (high d), dlLo := some (low d), dlPtr := .high
      fcr := ⟨true, false, 3#2⟩, mcr := 0x03, txq := []
      trace := s.trace ++ (configureWords d).map (⟨·, none⟩) } := by
  rw [configureWords, execWords_programDivisor, execWords_setLineFifoModem]
  simp

/-! ### The words (R135) and the divisor they leave -/

theorem configureWords_eq (d : BitVec 16) : configureWords d =
    [0x2003FB80, 0x2003F800 ||| (high d).setWidth 32, 0x2003F800 ||| (low d).setWidth 32, 0x2003FB03, 0x2003FAC7,
      0x2003FC03] := by
  have hdata (v : Byte) : outb 0x3F8 v = 0x2003F800 ||| v.setWidth 32 := encode_uartDataW v
  rw [configureWords, hdata, hdata]
  rfl

@[simp] theorem pair_high_low (d : BitVec 16) : pair (high d) (low d) = d := by
  rw [pair, high, low, BitVec.extractLsb'_append_extractLsb'_eq_extractLsb' (by decide)]
  exact BitVec.extractLsb'_eq_self

/-! ### The obligation -/

/-- Settles O44: the two halves lead from any state to the one named, in which the divisor's two bytes pair up to `d`. -/
theorem configureSequenceConfigures : Obligations.ConfigureSequenceConfigures := by
  intro s d ws
  have hws : configureWords d = ws := configureWords_eq d
  have hexec := execWords_configureWords s d
  rw [hws] at hexec
  refine ⟨?words, _, hexec, ⟨rfl, ?divisor, rfl, rfl, rfl⟩, rfl⟩
  case words => rw [configure, hws]
  case divisor => rw [State.dl_of_set rfl rfl, pair_high_low]

end Sys2Proof.Machine
end

section
/-! PROOFS. The CRT controller's cursor (spec/43_vga_cursor.md): its four transactions (R155 to R159), then `MOVE_CURSOR pos`
(R160) as two pairs, each an index write and the data write to the cursor register it selects. -/

namespace Sys2Proof.Machine

/-! ### The words of the register writes (R77) -/

section
variable (v : Byte)

theorem encode_crtcIndexW : encode (.crtcIndexW v) = 0x2003D400 ||| v.setWidth 32 := ioWord_eq_or true 0x3D4 v

theorem encode_crtcDataW : encode (.crtcDataW v) = 0x2003D500 ||| v.setWidth 32 := ioWord_eq_or true 0x3D5 v

end

/-! ### The obligations about one transaction -/

/-- Settles O20: the index write tests nothing. -/
theorem crtcIndexWriteStores : Obligations.CrtcIndexWriteStores := by
  intro s v
  rw [exec_crtcIndexW, State.complete, encode_crtcIndexW]

/-- Settles O21: the four kinds of index are the four equations of `crtcDataWrite`. -/
theorem crtcDataWriteFollowsIndex : Obligations.CrtcDataWriteFollowsIndex := by
  intro s v word
  rw [exec_crtcDataW]
  refine ⟨?unset, ?high, ?low, ?other⟩
  case unset =>
    intro hunset
    rw [crtcDataWrite_unset hunset, State.complete, encode_crtcDataW]
    rfl
  case high =>
    intro hindex
    rw [crtcDataWrite_high hindex, State.complete, encode_crtcDataW]
  case low =>
    intro hindex
    rw [crtcDataWrite_low hindex, State.complete, encode_crtcDataW]
  case other =>
    intro k hindex hhigh hlow
    rw [crtcDataWrite_other hindex hhigh hlow, State.refuse]

/-- Settles O22: neither read looks at the index or the cursor before it refuses. -/
theorem crtcReadsRefuse : Obligations.CrtcReadsRefuse := by
  intro s
  exact ⟨exec_crtcIndexR s, exec_crtcDataR s⟩

/-! ### Writing one cursor register, at the head of a row (R160) -/

section
variable (s : State) (v : Byte) (ws : List Word)

theorem execWords_outb_crtcIndex : execWords (outb 0x3D4 v :: ws) s =
    execWords ws ({ s with crtcIndex := some v }.complete (.crtcIndexW v) none) :=
  execWords_outb (exec_crtcIndexW s v)

theorem execWords_outb_crtcData :
    execWords (outb 0x3D5 v :: ws) s = execWords ws (s.crtcDataWrite (.crtcDataW v) v) :=
  execWords_outb (exec_crtcDataW s v)

theorem execWords_writeCursorHigh :
    execWords (outb 0x3D4 14 :: outb 0x3D5 v :: ws) s = execWords ws { s with
      crtcIndex := some 14, cursorHi := some v
      trace := s.trace ++ [outb 0x3D4 14, outb 0x3D5 v].map (⟨·, none⟩) } := by
  rw [execWords_outb_crtcIndex, execWords_outb_crtcData, crtcDataWrite_high rfl]
  simp [State.complete, encode]

theorem execWords_writeCursorLow :
    execWords (outb 0x3D4 15 :: outb 0x3D5 v :: ws) s = execWords ws { s with
      crtcIndex := some 15, cursorLo := some v
      trace := s.trace ++ [outb 0x3D4 15, outb 0x3D5 v].map (⟨·, none⟩) } := by
  rw [execWords_outb_crtcIndex, execWords_outb_crtcData, crtcDataWrite_low rfl]
  simp [State.complete, encode]

end

/-! ### `MOVE_CURSOR pos` (R160) and its transient (R161) -/

/-- From any state, whatever the index and the cursor were. -/
theorem execWords_moveCursorWords (s : State) (pos : BitVec 16) :
    execWords (moveCursorWords pos) s = .next { s with
      crtcIndex := some 15, cursorHi := some (high pos), cursorLo := some (low pos)
      trace := s.trace ++ (moveCursorWords pos).map (⟨·, none⟩) } := by
  rw [moveCursorWords, execWords_writeCursorHigh, execWords_writeCursorLow]
  simp [execWords]

/-- With the high byte set, the position is there or not as the low byte is. -/
theorem State.cursorPos_of_high_set {s : State} {h : Byte} (hh : s.cursorHi = some h) :
    s.cursorPos = s.cursorLo.map (pair h) := by
  cases hl : s.cursorLo with
  | none => exact State.cursorPos_of_unset (.inr hl)
  | some l => exact State.cursorPos_of_set hh hl

/-- Settles O49: the first pair sets the high byte and leaves the low one, and the two bytes left pair up to `pos`. -/
theorem moveCursorSetsPosition : Obligations.MoveCursorSetsPosition := by
  intro s pos first second
  have hdata (v : Byte) : outb 0x3D5 v = 0x2003D500 ||| v.setWidth 32 := encode_crtcDataW v
  have hfirst : first = [outb 0x3D4 14, outb 0x3D5 (high pos)] := by
    rw [hdata]
    rfl
  have hsecond : second = [outb 0x3D4 15, outb 0x3D5 (low pos)] := by
    rw [hdata]
    rfl
  have hwords : moveCursorWords pos = first ++ second := by
    rw [hfirst, hsecond]
    rfl
  have hexec := execWords_moveCursorWords s pos
  rw [hwords] at hexec
  refine ⟨?words, ?transient, _, hexec, ?position, rfl⟩
  case words => rw [moveCursor, hwords]
  case transient =>
    rw [hfirst]
    exact ⟨_, execWords_writeCursorHigh s (high pos) [], State.cursorPos_of_high_set rfl⟩
  case position => rw [State.cursorPos_of_set rfl rfl, pair_high_low]

end Sys2Proof.Machine
end

section
/-! PROOFS. The framebuffer (spec/44_vga_framebuffer.md): the byte write and the byte read (R170, R171) as whole next states,
the operations of `WRITE_CELL` by the parity of its offset (R172, R174), and its attribute byte (R173). -/

namespace Sys2Proof.Machine

/-! ### The words of the byte transactions (R77) -/

section
variable (off : FbOffset)

theorem encode_fbByteW (v : Byte) :
    encode (.fbByteW off v) = 0x60000000 ||| off.setWidth 32 <<< 8 ||| v.setWidth 32 := fbWord_eq_or true off v

theorem encode_fbByteR : encode (.fbByteR off) = 0x40000000 ||| off.setWidth 32 <<< 8 := by
  rw [encode, fbr, fbWord_eq_or]
  simp

end

/-! ### One byte written or read (R170, R171) -/

/-- Settles O24: the bound chooses between the two equations of `fbWrite`; inside it, the bytes read afterwards are as the
two laws of a read after a write say. -/
theorem fbWriteStoresOrFaults : Obligations.FbWriteStoresOrFaults := by
  intro s off v word
  have hexec := exec_fbByteW s v off
  constructor
  · intro hin
    rw [fbWrite_inside hin, State.complete, encode_fbByteW] at hexec
    exact ⟨_, hexec, rfl, Memory.read_write_same s.fb off.toNat v, fun _ hne => Memory.read_write_other s.fb v hne⟩
  · intro hout
    rw [hexec, fbWrite_outside hout, State.complete, encode_fbByteW]
    rfl

/-- Settles O25: the three clauses are the three equations of `fbRead`, in the order in which it tests for them. -/
theorem fbReadReturnsOrFaults : Obligations.FbReadReturnsOrFaults := by
  intro s off word
  rw [exec_fbByteR]
  refine ⟨?outside, ?unset, ?stored⟩
  case outside =>
    intro hout
    rw [fbRead_outside hout, State.complete, encode_fbByteR]
    rfl
  case unset =>
    intro hin hunset
    rw [fbRead_unset hin hunset, State.complete, encode_fbByteR]
    rfl
  case stored =>
    intro v hin hstored
    rw [fbRead_stored hin hstored, State.complete, encode_fbByteR]

/-! ### The parity of a cell's offset (R172, R174) -/

section
variable {off : FbOffset}

theorem oddOffset_iff : oddOffset off = true ↔ off.toNat % 2 = 1 := by
  rw [oddOffset, BitVec.getLsbD, Nat.testBit_zero, decide_eq_true_iff]

/-- The largest offset is odd, so that the attribute's offset does not wrap (log 14). -/
theorem toNat_add_one_of_even (heven : off.toNat % 2 = 0) : (off + 1).toNat = off.toNat + 1 := by
  have hlt : off.toNat + 1 < 2 ^ 21 := by
    have := off.isLt
    omega
  exact BitVec.toNat_add_of_lt hlt

theorem writeCell_odd (hodd : off.toNat % 2 = 1) (c fg bg : Byte) : writeCell off c fg bg = [.cellCheck off] :=
  if_pos (oddOffset_iff.mpr hodd)

theorem writeCell_even (heven : off.toNat % 2 = 0) (c fg bg : Byte) :
    writeCell off c fg bg = [.transaction (fbw off c), .transaction (fbw (off + 1) (packAttr fg bg))] :=
  if_neg (mt oddOffset_iff.mp (by omega))

theorem hostStep_cellCheck {s : State} {rest : List HostOp} (hpending : s.pending = .cellCheck off :: rest) :
    s.hostStep = .next (s.cellCheckStep off) := by
  rw [State.hostStep, hpending]

theorem cellCheckStep_odd (s : State) (hodd : off.toNat % 2 = 1) :
    s.cellCheckStep off = { s.raise .f5CellMisaligned (.offset off) with pending := s.pending.tail } := by
  rw [State.cellCheckStep, if_pos (oddOffset_iff.mpr hodd)]
  rfl

end

/-- Settles O39: at an odd offset the one operation is the check, which raises F5; at an even one the two words are the
framebuffer writes of the character and, at the offset after it, of the attribute. -/
theorem oddCellFaultsAndWritesNothing : Obligations.OddCellFaultsAndWritesNothing := by
  intro s off c fg bg
  constructor
  · intro rest hodd hpending
    rw [writeCell_odd hodd] at hpending
    rw [hostStep_cellCheck hpending, cellCheckStep_odd s hodd, hpending]
    rfl
  · intro heven
    refine ⟨off + 1, toNat_add_one_of_even heven, ?_⟩
    rw [writeCell_even heven, ← encode_fbByteW, ← encode_fbByteW]
    rfl

/-! ### The attribute byte (R173) -/

/-- The mask of R173 is the low nibble put back into a byte. -/
theorem and_0x0F_eq_setWidth (b : Byte) : b &&& 0x0F#8 = (b.extractLsb' 0 4).setWidth 8 := by
  have hmod : b.toNat &&& 15 = b.toNat % 16 := Nat.and_two_pow_sub_one_eq_mod b.toNat 4
  have hlt : b.toNat % 16 < 256 := by omega
  apply BitVec.eq_of_toNat_eq
  simp [hmod, Nat.mod_eq_of_lt hlt]

theorem packAttr_eq_append (fg bg : Byte) : packAttr fg bg = fg.extractLsb' 0 4 ++ bg.extractLsb' 0 4 := by
  rw [packAttr, and_0x0F_eq_setWidth, and_0x0F_eq_setWidth]
  exact (BitVec.setWidth_append_eq_shiftLeft_setWidth_or).symm

@[simp] theorem attrFg_packAttr (fg bg : Byte) : attrFg (packAttr fg bg) = fg.extractLsb' 0 4 := by
  rw [packAttr_eq_append]
  exact BitVec.extractLsb'_append_eq_left

@[simp] theorem attrBg_packAttr (fg bg : Byte) : attrBg (packAttr fg bg) = bg.extractLsb' 0 4 := by
  rw [packAttr_eq_append]
  exact BitVec.extractLsb'_append_eq_right

/-- Settles O51: the nibbles of the packed byte are the two halves it is appended from. -/
theorem attributePacksNibbles : Obligations.AttributePacksNibbles := by
  intro fg bg
  exact ⟨attrFg_packAttr fg bg, attrBg_packAttr fg bg, attrFg_packAttr fg bg, attrBg_packAttr fg bg, rfl⟩

end Sys2Proof.Machine
end

section
/-! PROOFS. Refusals (spec/60_exceptions.md R187, R189): a transaction or a transmitter step leaves the mark as it was or is a
refusal whole, and past the mark no agent steps and no end is acceptable. -/

namespace Sys2Proof.Machine

variable {s t : State}

/-! ### After the mark -/

theorem step_of_refused {x : RefusalCode} (hx : s.refused = some x) : step s = .refused (.halted x) := by
  rw [step, hx]

theorem not_noFault_of_refused {x : RefusalCode} (hx : s.refused = some x) : ¬ NoFault s := by
  rintro ⟨-, hnone⟩
  rw [hx] at hnone
  cases hnone

/-! ### The mark kept, or a refusal and nothing else -/

/-- R157, R159: of the four kinds of index only X8's refuses. -/
theorem crtcDataWrite_keeps_mark_or_refuses (s : State) (i : Instr) (v : Byte) :
    (s.crtcDataWrite i v).refused = s.refused ∨ ∃ x, s.crtcDataWrite i v = s.refuse x := by
  cases hindex : s.crtcIndex with
  | none =>
    rw [crtcDataWrite_unset hindex]
    exact .inl rfl
  | some k =>
    by_cases hhigh : k = 14
    · rw [crtcDataWrite_high (hhigh ▸ hindex)]
      exact .inl rfl
    · by_cases hlow : k = 15
      · rw [crtcDataWrite_low (hlow ▸ hindex)]
        exact .inl rfl
      · exact .inr ⟨_, crtcDataWrite_other hindex hhigh hlow⟩

/-- The rows that complete keep the mark; every other row is `refuse` with its code, and the CRTC data write is either. -/
theorem exec_keeps_mark_or_refuses {i : Instr} (h : exec i s = .next t) :
    t.refused = s.refused ∨ ∃ x, t = s.refuse x := by
  cases i
  case uartDataW v =>
    left
    cases hdlab : s.dlab
    · rw [exec_uartDataW_thr s v hdlab] at h
      cases h
      simp
    · rw [exec_uartDataW_divisor s v hdlab] at h
      cases h
      simp
  case crtcDataW v =>
    cases h
    exact crtcDataWrite_keeps_mark_or_refuses s _ v
  case uartFcrW | uartLcrW | uartLcrR | uartMcrW | uartMcrR | uartLsrR | crtcIndexW =>
    cases h
    exact .inl rfl
  case fbByteW off v =>
    cases h
    exact .inl (State.fbWrite_refused s _ off v)
  case fbByteR off =>
    cases h
    exact .inl (State.fbRead_refused s _ off)
  all_goals
    cases h
    exact .inr ⟨_, rfl⟩

/-- R122, R123: with no byte waiting or nothing in its way the transmitter keeps the mark; blocked, it refuses. -/
theorem txStep_keeps_mark_or_refuses (s : State) : s.txStep.refused = s.refused ∨ ∃ x, s.txStep = s.refuse x := by
  unfold State.txStep
  split
  · exact .inl rfl
  · split
    · exact .inr ⟨_, rfl⟩
    · exact .inl rfl

/-- What newly sets the mark is a refusal, and so changes nothing else. -/
theorem only_mark_changes (hkeeps : t.refused = s.refused ∨ ∃ x, t = s.refuse x) (hs : s.refused = none)
    (ht : t.refused ≠ none) : t = { s with refused := t.refused } := by
  obtain hkept | ⟨x, rfl⟩ := hkeeps
  · exact absurd (hkept.trans hs) ht
  · rfl

/-! ### The obligation -/

/-- Settles O31: `step` reads the mark first and both forms of end ask for it to be clear; a transaction or transmitter step
that newly sets it is a refusal whole. -/
theorem refusalStopsEveryAgent : Obligations.RefusalStopsEveryAgent := by
  refine ⟨?halted, ?transaction, ?transmitter⟩
  case halted =>
    intro s x hx
    have hfault : ¬ NoFault s := not_noFault_of_refused hx
    exact ⟨step_of_refused hx, fun ⟨_, hno⟩ => hfault hno, fun _ ⟨_, hno⟩ => hfault hno⟩
  case transaction =>
    intro i s t hs hexec ht
    exact only_mark_changes (exec_keeps_mark_or_refuses hexec) hs ht
  case transmitter =>
    intro s hs ht
    exact only_mark_changes (txStep_keeps_mark_or_refuses s) hs ht

end Sys2Proof.Machine
end

section
/-! PROOFS. The reset state (spec/70_reset_and_hazards.md R205). -/

namespace Sys2Proof.Machine

/-- `FAULTS = {}` sets the bit of no code (R33). -/
@[simp] theorem FaultSet.has_empty (c : FaultCode) : FaultSet.empty.has c = false := by
  cases c <;> rfl

/-- Settles O1: the rows the reset state stores are its own fields; `THRE`, the framebuffer's bytes and the fault bits are
read off its empty queue, framebuffer and fault set. -/
theorem resetStateMatchesTable : Obligations.ResetStateMatchesTable := by
  have hthre : State.reset.thre = true := State.thre_eq_true_iff.mpr rfl
  have hfb : ∀ off, State.reset.fb.read off = none := Memory.read_nil
  have hfaults : ∀ c, State.reset.faults.has c = false := FaultSet.has_empty
  exact ⟨rfl, rfl, rfl, rfl, rfl, rfl, rfl, rfl, rfl, hthre, rfl, rfl, rfl, rfl, hfb, hfaults, rfl, rfl⟩

end Sys2Proof.Machine
end

section
/-! PROOFS. Decoding and encoding undo each other (spec/30_encoding.md R76, R77, R78). Every word has one of five forms: a
malformed word, or the word of an assembler form (R80); each form is decoded and encoded by its own equation. -/

namespace Sys2Proof

/-! ### The malformed words (R78) -/

theorem wordSp_reserved_iff (w : Word) : w.getLsbD 31 = true ↔ wordSp w = 2 ∨ wordSp w = 3 := by
  have hbit : w.getLsbD 31 = (wordSp w).getLsbD 1 := by simp [wordSp]
  have hsp : ∀ sp : BitVec 2, sp.getLsbD 1 = true ↔ sp = 2 ∨ sp = 3 := by decide
  rw [hbit, hsp]

theorem wordSp_io_iff (w : Word) : w.getLsbD 31 = false ∧ w.getLsbD 30 = false ↔ wordSp w = 0 := by
  have hhigh : w.getLsbD 31 = (wordSp w).getLsbD 1 := by simp [wordSp]
  have hlow : w.getLsbD 30 = (wordSp w).getLsbD 0 := by simp [wordSp]
  have hsp : ∀ sp : BitVec 2, sp.getLsbD 1 = false ∧ sp.getLsbD 0 = false ↔ sp = 0 := by decide
  rw [hhigh, hlow, hsp]

/-- The model's test for X1 is the case list of R78. -/
theorem malformedWord_iff (w : Word) : malformedWord w = true ↔
    wordSp w = 2 ∨ wordSp w = 3 ∨ (wordSp w = 0 ∧ wordPad w ≠ 0#5) ∨ (wordIsWrite w = false ∧ wordData w ≠ 0#8) := by
  have hwrite : w.getLsbD 29 = wordIsWrite w := rfl
  have hdata : w.extractLsb' 0 8 = wordData w := rfl
  have hpad : w.extractLsb' 24 5 = wordPad w := rfl
  rw [malformedWord, hwrite, hdata, hpad, ← or_assoc, ← wordSp_reserved_iff, ← wordSp_io_iff]
  cases w.getLsbD 31 <;> cases w.getLsbD 30 <;> simp [or_comm]

theorem decode_of_malformedWord {w : Word} (h : malformedWord w = true) : decode w = .malformed w :=
  decode_malformed ((malformedWord_iff w).mp h)

/-! ### The five forms of a word (R70) -/

theorem wordIsWrite_toNat (w : Word) : (wordIsWrite w).toNat = w.toNat / 2 ^ 29 % 2 := Nat.toNat_testBit w.toNat 29

theorem eq_ioWord_fields {w : Word} (hsp : wordSp w = 0) (hpad : wordPad w = 0) :
    w = ioWord (wordIsWrite w) (wordPort w) (wordData w) := by
  have hsp' : w.toNat / 2 ^ 30 % 2 ^ 2 = 0 := by rw [← field_toNat]; exact congrArg BitVec.toNat hsp
  have hpad' : w.toNat / 2 ^ 24 % 2 ^ 5 = 0 := by rw [← field_toNat]; exact congrArg BitVec.toNat hpad
  apply BitVec.eq_of_toNat_eq
  rw [ioWord_toNat, wordIsWrite_toNat, wordPort, wordData, field_toNat, field_toNat]
  have := w.isLt
  omega

theorem eq_fbWord_fields {w : Word} (hsp : wordSp w = 1) : w = fbWord (wordIsWrite w) (wordOff w) (wordData w) := by
  have hsp' : w.toNat / 2 ^ 30 % 2 ^ 2 = 1 := by rw [← field_toNat]; exact congrArg BitVec.toNat hsp
  apply BitVec.eq_of_toNat_eq
  rw [fbWord_toNat, wordIsWrite_toNat, wordOff, wordData, field_toNat, field_toNat]
  have := w.isLt
  omega

/-- A word is malformed, or it is the word of an assembler form. -/
theorem word_forms (w : Word) : malformedWord w = true ∨ (∃ port d, w = outb port d) ∨ (∃ port, w = inb port) ∨
    (∃ off d, w = fbw off d) ∨ ∃ off, w = fbr off := by
  by_cases hm : malformedWord w = true
  · exact .inl hm
  right
  rw [malformedWord_iff] at hm
  simp only [not_or, not_and, Decidable.not_not] at hm
  obtain ⟨h2, h3, hpad, hdata⟩ := hm
  have hsp : ∀ sp : BitVec 2, sp ≠ 2 → sp ≠ 3 → sp = 0 ∨ sp = 1 := by decide
  obtain h0 | h1 := hsp _ h2 h3
  · have hw := eq_ioWord_fields h0 (hpad h0)
    cases hdir : wordIsWrite w
    · rw [hdir, hdata hdir] at hw
      exact .inr (.inl ⟨_, hw⟩)
    · rw [hdir] at hw
      exact .inl ⟨_, _, hw⟩
  · have hw := eq_fbWord_fields h1
    cases hdir : wordIsWrite w
    · rw [hdir, hdata hdir] at hw
      exact .inr (.inr (.inr ⟨_, hw⟩))
    · rw [hdir] at hw
      exact .inr (.inr (.inl ⟨_, _, hw⟩))

/-! ### The port accesses (R76) -/

section
variable (port : Port) (d : Byte)

theorem decodePortWrite_roundTrip :
    WellFormed (decodePortWrite port d) = true ∧ encode (decodePortWrite port d) = outb port d := by
  by_cases hport : port ∈ decodedPorts
  · simp only [decodedPorts, List.mem_cons, List.not_mem_nil, or_false] at hport
    obtain rfl | rfl | rfl | rfl | rfl | rfl | rfl | rfl | rfl | rfl := hport <;> exact ⟨rfl, rfl⟩
  · rw [decodePortWrite_undecoded hport]
    exact ⟨by simpa [WellFormed] using hport, rfl⟩

theorem decodePortRead_roundTrip :
    WellFormed (decodePortRead port) = true ∧ encode (decodePortRead port) = inb port := by
  by_cases hport : port ∈ decodedPorts
  · simp only [decodedPorts, List.mem_cons, List.not_mem_nil, or_false] at hport
    obtain rfl | rfl | rfl | rfl | rfl | rfl | rfl | rfl | rfl | rfl := hport <;> exact ⟨rfl, rfl⟩
  · rw [decodePortRead_undecoded hport]
    exact ⟨by simpa [WellFormed] using hport, rfl⟩

end

/-! ### The round trips -/

/-- Settles O7: one equation of the decoder per form of the word. -/
theorem encodeInvertsDecode : Obligations.EncodeInvertsDecode := by
  intro w
  obtain hm | ⟨port, d, rfl⟩ | ⟨port, rfl⟩ | ⟨off, d, rfl⟩ | ⟨off, rfl⟩ := word_forms w
  · rw [decode_of_malformedWord hm]
    exact ⟨hm, rfl⟩
  · rw [decode_outb]
    exact decodePortWrite_roundTrip port d
  · rw [decode_inb]
    exact decodePortRead_roundTrip port
  · rw [decode_fbw]
    exact ⟨rfl, rfl⟩
  · rw [decode_fbr]
    exact ⟨rfl, rfl⟩

theorem not_mem_decodedPorts_iff {port : Port} : (!decodedPorts.contains port) = true ↔ port ∉ decodedPorts := by
  simp

/-- Settles O6: an exact row's word decodes by its own port or offset; the three catch-all rows hold only operands that no row
above them takes. -/
theorem decodeInvertsEncode : Obligations.DecodeInvertsEncode := by
  intro i hi
  cases i with
  | uartDataW d => exact decode_outb 0x3F8 d
  | uartDataR => exact decode_inb 0x3F8
  | uartOff1W d => exact decode_outb 0x3F9 d
  | uartOff1R => exact decode_inb 0x3F9
  | uartFcrW d => exact decode_outb 0x3FA d
  | uartOff2R => exact decode_inb 0x3FA
  | uartLcrW d => exact decode_outb 0x3FB d
  | uartLcrR => exact decode_inb 0x3FB
  | uartMcrW d => exact decode_outb 0x3FC d
  | uartMcrR => exact decode_inb 0x3FC
  | uartLsrR => exact decode_inb 0x3FD
  | uartLsrW d => exact decode_outb 0x3FD d
  | uartOff6W d => exact decode_outb 0x3FE d
  | uartOff6R => exact decode_inb 0x3FE
  | uartOff7W d => exact decode_outb 0x3FF d
  | uartOff7R => exact decode_inb 0x3FF
  | crtcIndexW d => exact decode_outb 0x3D4 d
  | crtcIndexR => exact decode_inb 0x3D4
  | crtcDataW d => exact decode_outb 0x3D5 d
  | crtcDataR => exact decode_inb 0x3D5
  | fbByteW off d => exact decode_fbw off d
  | fbByteR off => exact decode_fbr off
  | ioUndecodedW port d =>
    rw [encode, decode_outb]
    exact decodePortWrite_undecoded (not_mem_decodedPorts_iff.mp hi) d
  | ioUndecodedR port =>
    rw [encode, decode_inb]
    exact decodePortRead_undecoded (not_mem_decodedPorts_iff.mp hi)
  | malformed w => exact decode_of_malformedWord hi

/-- Settles O5: each vector's word, decoded. -/
theorem decodeReadsSpecVectors : Obligations.DecodeReadsSpecVectors := by
  unfold Obligations.DecodeReadsSpecVectors
  decide

end Sys2Proof
end

section
/-! PROOFS. The opcode map read by first match (spec/30_encoding.md R75, R77). Rows 1 to 22 are right about every word they
accept, whatever their order; a catch-all row is right about the words that the rows above it leave. -/

namespace Sys2Proof

/-- The row says of a word what the decoder says: the instruction, and the instruction's row number. -/
def OpcodeRow.RightAbout (row : OpcodeRow) (w : Word) : Prop :=
  row.build w = decode w ∧ row.number = rowNumber (decode w)

/-- Rows 1 to 22, which name a port or the framebuffer. -/
def exactRows : List OpcodeRow := opcodeRowsUartLow ++ opcodeRowsUartHigh ++ opcodeRowsVga

theorem opcodeTable_eq : opcodeTable = exactRows ++ opcodeRowsCatchAll := rfl

/-! ### What an accepted word's fields are (R75) -/

section
variable {w mask pattern : Word}

theorem field_of_masked {lo n : Nat} (h : w &&& mask = pattern) (hmask : mask.extractLsb' lo n = BitVec.allOnes n) :
    w.extractLsb' lo n = pattern.extractLsb' lo n := by
  rw [← h, BitVec.extractLsb'_and, hmask, BitVec.and_allOnes]

theorem bit_of_masked {k : Nat} (h : w &&& mask = pattern) (hmask : mask.getLsbD k = true) :
    w.getLsbD k = pattern.getLsbD k := by
  rw [← h, BitVec.getLsbD_and, hmask, Bool.and_true]

end

/-! ### Rows 1 to 22 -/

section
variable {w : Word}

/-- The row of a write to the port `p`. -/
theorem rightAbout_portWrite (n : Nat) (p : Port) (f : Byte → Instr) (hf : ∀ d, decodePortWrite p d = f d)
    (hn : ∀ d, rowNumber (f d) = n) (h : w &&& 0xFFFFFF00 = outb p 0) :
    OpcodeRow.RightAbout ⟨n, outb p 0, 0xFFFFFF00, fun w => f (wordData w)⟩ w := by
  have hsp : wordSp w = 0 := (field_of_masked h rfl).trans (wordSp_ioWord true p 0)
  have hpad : wordPad w = 0 := (field_of_masked h rfl).trans (wordPad_ioWord true p 0)
  have hdir : wordIsWrite w = true := (bit_of_masked h rfl).trans (wordIsWrite_ioWord true p 0)
  have hport : wordPort w = p := (field_of_masked h rfl).trans (wordPort_ioWord true p 0)
  have hdecode : decode w = f (wordData w) := by rw [decode_portWrite hsp hpad hdir, hport, hf]
  exact ⟨hdecode.symm, by rw [hdecode, hn]⟩

/-- The row of a read of the port `p`. -/
theorem rightAbout_portRead (n : Nat) (p : Port) (i : Instr) (hi : decodePortRead p = i) (hn : rowNumber i = n)
    (h : w &&& 0xFFFFFFFF = inb p) : OpcodeRow.RightAbout ⟨n, inb p, 0xFFFFFFFF, fun _ => i⟩ w := by
  have hw : w = inb p := (BitVec.and_allOnes (x := w)).symm.trans h
  have hdecode : decode w = i := by rw [hw, decode_inb, hi]
  exact ⟨hdecode.symm, by rw [hdecode, hn]⟩

end

section
variable (w : Word)

theorem uartLowRows_right : ∀ row ∈ opcodeRowsUartLow, row.accepts w = true → row.RightAbout w := by
  simp only [opcodeRowsUartLow, List.forall_mem_cons, OpcodeRow.accepts, beq_iff_eq]
  exact ⟨rightAbout_portWrite 1 0x3F8 .uartDataW (fun _ => rfl) (fun _ => rfl),
    rightAbout_portRead 2 0x3F8 .uartDataR rfl rfl,
    rightAbout_portWrite 3 0x3F9 .uartOff1W (fun _ => rfl) (fun _ => rfl),
    rightAbout_portRead 4 0x3F9 .uartOff1R rfl rfl,
    rightAbout_portWrite 5 0x3FA .uartFcrW (fun _ => rfl) (fun _ => rfl),
    rightAbout_portRead 6 0x3FA .uartOff2R rfl rfl,
    rightAbout_portWrite 7 0x3FB .uartLcrW (fun _ => rfl) (fun _ => rfl),
    rightAbout_portRead 8 0x3FB .uartLcrR rfl rfl,
    rightAbout_portWrite 9 0x3FC .uartMcrW (fun _ => rfl) (fun _ => rfl),
    rightAbout_portRead 10 0x3FC .uartMcrR rfl rfl, List.forall_mem_nil _⟩

theorem uartHighRows_right : ∀ row ∈ opcodeRowsUartHigh, row.accepts w = true → row.RightAbout w := by
  simp only [opcodeRowsUartHigh, List.forall_mem_cons, OpcodeRow.accepts, beq_iff_eq]
  exact ⟨rightAbout_portRead 11 0x3FD .uartLsrR rfl rfl,
    rightAbout_portWrite 12 0x3FD .uartLsrW (fun _ => rfl) (fun _ => rfl),
    rightAbout_portWrite 13 0x3FE .uartOff6W (fun _ => rfl) (fun _ => rfl),
    rightAbout_portRead 14 0x3FE .uartOff6R rfl rfl,
    rightAbout_portWrite 15 0x3FF .uartOff7W (fun _ => rfl) (fun _ => rfl),
    rightAbout_portRead 16 0x3FF .uartOff7R rfl rfl, List.forall_mem_nil _⟩

variable {w}

/-- Row 21: the space and the direction leave every offset and byte free. -/
theorem rightAbout_fbWrite (h : w &&& 0xE0000000 = 0x60000000) :
    OpcodeRow.RightAbout ⟨21, 0x60000000, 0xE0000000, fun w => .fbByteW (wordOff w) (wordData w)⟩ w := by
  have hsp : wordSp w = 1 := field_of_masked h rfl
  have hdir : wordIsWrite w = true := bit_of_masked h rfl
  have hw : w = fbw (wordOff w) (wordData w) := by rw [fbw, ← hdir]; exact eq_fbWord_fields hsp
  have hdecode : decode w = .fbByteW (wordOff w) (wordData w) := (congrArg decode hw).trans (decode_fbw _ _)
  exact ⟨hdecode.symm, by rw [hdecode, rowNumber]⟩

/-- Row 22: the byte of a read is zero too. -/
theorem rightAbout_fbRead (h : w &&& 0xE00000FF = 0x40000000) :
    OpcodeRow.RightAbout ⟨22, 0x40000000, 0xE00000FF, fun w => .fbByteR (wordOff w)⟩ w := by
  have hsp : wordSp w = 1 := field_of_masked h rfl
  have hdir : wordIsWrite w = false := bit_of_masked h rfl
  have hdata : wordData w = 0 := field_of_masked h rfl
  have hw : w = fbr (wordOff w) := by rw [fbr, ← hdir, ← hdata]; exact eq_fbWord_fields hsp
  have hdecode : decode w = .fbByteR (wordOff w) := (congrArg decode hw).trans (decode_fbr _)
  exact ⟨hdecode.symm, by rw [hdecode, rowNumber]⟩

theorem vgaRows_right (w : Word) : ∀ row ∈ opcodeRowsVga, row.accepts w = true → row.RightAbout w := by
  simp only [opcodeRowsVga, List.forall_mem_cons, OpcodeRow.accepts, beq_iff_eq]
  exact ⟨rightAbout_portWrite 17 0x3D4 .crtcIndexW (fun _ => rfl) (fun _ => rfl),
    rightAbout_portRead 18 0x3D4 .crtcIndexR rfl rfl,
    rightAbout_portWrite 19 0x3D5 .crtcDataW (fun _ => rfl) (fun _ => rfl),
    rightAbout_portRead 20 0x3D5 .crtcDataR rfl rfl,
    rightAbout_fbWrite, rightAbout_fbRead, List.forall_mem_nil _⟩

theorem exactRows_right (w : Word) : ∀ row ∈ exactRows, row.accepts w = true → row.RightAbout w := by
  simp only [exactRows, List.mem_append]
  rintro row ((hlow | hhigh) | hvga)
  · exact uartLowRows_right w row hlow
  · exact uartHighRows_right w row hhigh
  · exact vgaRows_right w row hvga

end

/-! ### Rows 23 to 25 -/

/-- Rows 1 to 22 leave no access to a decoded port. -/
theorem exactRows_take_portWrite {p : Port} (hp : p ∈ decodedPorts) (d : Byte) :
    ∃ row ∈ exactRows, row.accepts (outb p d) = true := by
  have hrow : decodedPorts.all (fun p => exactRows.any fun row => row.mask == 0xFFFFFF00 && row.pattern == outb p 0) := by
    decide
  obtain ⟨row, hmem, hmask, hpattern⟩ : ∃ row ∈ exactRows, row.mask = 0xFFFFFF00 ∧ row.pattern = outb p 0 := by
    simpa using List.all_eq_true.mp hrow p hp
  refine ⟨row, hmem, ?_⟩
  rw [OpcodeRow.accepts, hmask, hpattern, beq_iff_eq]
  exact Laws.outb_and_portMask p d

theorem exactRows_take_portRead {p : Port} (hp : p ∈ decodedPorts) : ∃ row ∈ exactRows, row.accepts (inb p) = true := by
  have hrow : decodedPorts.all (fun p => exactRows.any (·.accepts (inb p))) := by decide
  exact List.any_eq_true.mp (List.all_eq_true.mp hrow p hp)

section
variable {w : Word} (hw : ∀ row ∈ exactRows, row.accepts w = false)
include hw

/-- Row 23, after rows 1 to 22: a write to a port that is not decoded. -/
theorem rightAbout_undecodedWrite (h : w &&& 0xFF000000 = 0x20000000) :
    OpcodeRow.RightAbout ⟨23, 0x20000000, 0xFF000000, fun w => .ioUndecodedW (wordPort w) (wordData w)⟩ w := by
  have hsp : wordSp w = 0 := field_of_masked h rfl
  have hpad : wordPad w = 0 := field_of_masked h rfl
  have hdir : wordIsWrite w = true := bit_of_masked h rfl
  have hport : wordPort w ∉ decodedPorts := by
    intro hp
    obtain ⟨row, hmem, hacc⟩ := exactRows_take_portWrite hp (wordData w)
    have heq : w = outb (wordPort w) (wordData w) := by rw [outb, ← hdir]; exact eq_ioWord_fields hsp hpad
    rw [← heq, hw row hmem] at hacc
    cases hacc
  have hdecode : decode w = .ioUndecodedW (wordPort w) (wordData w) := by
    rw [decode_portWrite hsp hpad hdir, decodePortWrite_undecoded hport]
  exact ⟨hdecode.symm, by rw [hdecode, rowNumber]⟩

/-- Row 24, after rows 1 to 22: a read of a port that is not decoded. -/
theorem rightAbout_undecodedRead (h : w &&& 0xFF0000FF = 0) :
    OpcodeRow.RightAbout ⟨24, 0, 0xFF0000FF, fun w => .ioUndecodedR (wordPort w)⟩ w := by
  have hsp : wordSp w = 0 := field_of_masked h rfl
  have hpad : wordPad w = 0 := field_of_masked h rfl
  have hdir : wordIsWrite w = false := bit_of_masked h rfl
  have hdata : wordData w = 0 := field_of_masked h rfl
  have hport : wordPort w ∉ decodedPorts := by
    intro hp
    obtain ⟨row, hmem, hacc⟩ := exactRows_take_portRead hp
    have heq : w = inb (wordPort w) := by rw [inb, ← hdir, ← hdata]; exact eq_ioWord_fields hsp hpad
    rw [← heq, hw row hmem] at hacc
    cases hacc
  have hdecode : decode w = .ioUndecodedR (wordPort w) := by
    rw [decode_portRead hsp hpad hdir hdata, decodePortRead_undecoded hport]
  exact ⟨hdecode.symm, by rw [hdecode, rowNumber]⟩

/-- Row 25, after rows 21 to 24: those four take the word of every assembler form. -/
theorem rightAbout_malformed (hwrite : w &&& 0xFF000000 ≠ 0x20000000) (hread : w &&& 0xFF0000FF ≠ 0) :
    OpcodeRow.RightAbout ⟨25, 0, 0, fun w => .malformed w⟩ w := by
  obtain hm | ⟨port, d, rfl⟩ | ⟨port, rfl⟩ | ⟨off, d, rfl⟩ | ⟨off, rfl⟩ := word_forms w
  · have hdecode := decode_of_malformedWord hm
    exact ⟨hdecode.symm, by rw [hdecode, rowNumber]⟩
  · exact absurd (Laws.outb_and_padMask port d) hwrite
  · exact absurd (Laws.inb_and_padMask port) hread
  · have hrow : opcodeRowsVga[4] ∈ exactRows := List.mem_append_right _ (List.getElem_mem (by decide))
    exact absurd (beq_iff_eq.mpr (Laws.fbw_and_mask off d)) (Bool.eq_false_iff.mp (hw _ hrow))
  · have hrow : opcodeRowsVga[5] ∈ exactRows := List.mem_append_right _ (List.getElem_mem (by decide))
    exact absurd (beq_iff_eq.mpr (Laws.fbr_and_mask off)) (Bool.eq_false_iff.mp (hw _ hrow))

/-- What rows 1 to 22 leave, the catch-alls take. -/
theorem catchAllRows_right : ∃ row, opcodeRowsCatchAll.find? (·.accepts w) = some row ∧ row.RightAbout w := by
  by_cases hwrite : w &&& 0xFF000000 = 0x20000000
  · exact ⟨_, List.find?_cons_of_pos (beq_iff_eq.mpr hwrite), rightAbout_undecodedWrite hw hwrite⟩
  · have h23 := List.find?_cons_of_neg (p := fun row : OpcodeRow => row.accepts w) (a := opcodeRowsCatchAll[0])
      (l := opcodeRowsCatchAll.tail) (mt beq_iff_eq.mp hwrite)
    by_cases hread : w &&& 0xFF0000FF = 0
    · exact ⟨_, h23.trans (List.find?_cons_of_pos (beq_iff_eq.mpr hread)), rightAbout_undecodedRead hw hread⟩
    · have h24 := List.find?_cons_of_neg (p := fun row : OpcodeRow => row.accepts w) (a := opcodeRowsCatchAll[1])
        (l := opcodeRowsCatchAll.tail.tail) (mt beq_iff_eq.mp hread)
      exact ⟨_, h23.trans (h24.trans (List.find?_cons_of_pos (beq_iff_eq.mpr BitVec.and_zero))),
        rightAbout_malformed hw hwrite hread⟩

end

/-- The first row that accepts a word is right about it. -/
theorem firstMatch_right (w : Word) : ∃ row, firstMatch w = some row ∧ row.RightAbout w := by
  rw [firstMatch, opcodeTable_eq, List.find?_append]
  cases hfind : exactRows.find? (·.accepts w) with
  | some row =>
    have hacc : row.accepts w = true := List.find?_some (p := fun row : OpcodeRow => row.accepts w) hfind
    exact ⟨row, rfl, exactRows_right w row (List.mem_of_find?_eq_some hfind) hacc⟩
  | none =>
    have hw : ∀ row ∈ exactRows, row.accepts w = false := by simpa using hfind
    exact catchAllRows_right hw

/-- Settles O9: the row found and what it builds are the decoder's. -/
theorem firstMatchDecodeEqualsDecode : Obligations.FirstMatchDecodeEqualsDecode := by
  intro w
  obtain ⟨row, hrow, hbuild, hnumber⟩ := firstMatch_right w
  rw [decodeByTable, hrow]
  exact ⟨congrArg some hbuild, congrArg some hnumber⟩

end Sys2Proof
end

section
/-! PROOFS. What one transaction does, said once (spec/30_encoding.md R77, spec/60_exceptions.md R185 to R190): `Effect` lists
every way a transaction can go, with its condition and its next state. -/

namespace Sys2Proof.Machine

/-- The ways a transaction `i` issued in `s` can go, with the next state of each. Every one but the first completes. -/
inductive Effect (s : State) : Instr → State → Prop where
  | refused {i : Instr} {x : RefusalCode} : Effect s i (s.refuse x)
  | enqueued {v : Byte} (hdlab : s.dlab = false) (hroom : s.txq.length < s.cap) :
      Effect s (.uartDataW v) ({ s with txq := s.txq ++ [v] }.complete (.uartDataW v) none)
  | dropped {v : Byte} (hdlab : s.dlab = false) (hfull : s.cap ≤ s.txq.length) :
      Effect s (.uartDataW v) ((s.raise .f1TxOverrun (.word (encode (.uartDataW v)))).complete (.uartDataW v) none)
  | divisorHigh {v : Byte} (hdlab : s.dlab = true) (hptr : s.dlPtr = .high) :
      Effect s (.uartDataW v) ({ s with dlHi := some v, dlPtr := .low }.complete (.uartDataW v) none)
  | divisorLow {v : Byte} (hdlab : s.dlab = true) (hptr : s.dlPtr = .low) :
      Effect s (.uartDataW v) ({ s with dlLo := some v, dlPtr := .high }.complete (.uartDataW v) none)
  | fifoCleared {v : Byte} (hclear : fcrFifoe v ≠ s.fcr.fifoEn ∨ fcrTxclr v = true) :
      Effect s (.uartFcrW v) ({ s with txq := [], fcr := fcrRetained v }.complete (.uartFcrW v) none)
  | fifoKept {v : Byte} (hkeep : ¬ (fcrFifoe v ≠ s.fcr.fifoEn ∨ fcrTxclr v = true)) :
      Effect s (.uartFcrW v) ({ s with fcr := fcrRetained v }.complete (.uartFcrW v) none)
  | lcrWritten {v : Byte} : Effect s (.uartLcrW v) ((s.lcrWrite v).complete (.uartLcrW v) none)
  | lcrRead : Effect s .uartLcrR (s.complete .uartLcrR (some s.lcr))
  | mcrWritten {v : Byte} : Effect s (.uartMcrW v) ({ s with mcr := v }.complete (.uartMcrW v) none)
  | mcrRead : Effect s .uartMcrR (s.complete .uartMcrR (some s.mcr))
  | lsrRead : Effect s .uartLsrR (s.lsrRead.2.complete .uartLsrR (some s.lsrRead.1))
  | indexWritten {v : Byte} :
      Effect s (.crtcIndexW v) ({ s with crtcIndex := some v }.complete (.crtcIndexW v) none)
  | indexUnset {v : Byte} (hindex : s.crtcIndex = none) : Effect s (.crtcDataW v)
      ((s.raise .f2CrtcIndexUnset (.word (encode (.crtcDataW v)))).complete (.crtcDataW v) none)
  | cursorHigh {v : Byte} (hindex : s.crtcIndex = some 14) :
      Effect s (.crtcDataW v) ({ s with cursorHi := some v }.complete (.crtcDataW v) none)
  | cursorLow {v : Byte} (hindex : s.crtcIndex = some 15) :
      Effect s (.crtcDataW v) ({ s with cursorLo := some v }.complete (.crtcDataW v) none)
  | stored {off : FbOffset} {v : Byte} (hin : off.toNat < s.params.fbSize) :
      Effect s (.fbByteW off v) ({ s with fb := s.fb.write off.toNat v }.complete (.fbByteW off v) none)
  | writeOutside {off : FbOffset} {v : Byte} (hout : s.params.fbSize ≤ off.toNat) : Effect s (.fbByteW off v)
      ((s.raise .f3FbOutOfRange (.word (encode (.fbByteW off v)))).complete (.fbByteW off v) none)
  | read {off : FbOffset} {v : Byte} (hin : off.toNat < s.params.fbSize) (hread : s.fb.read off.toNat = some v) :
      Effect s (.fbByteR off) (s.complete (.fbByteR off) (some v))
  | readUnset {off : FbOffset} (hin : off.toNat < s.params.fbSize) (hread : s.fb.read off.toNat = none) :
      Effect s (.fbByteR off) ((s.raise .f4FbUnwritten (.word (encode (.fbByteR off)))).draw.2.complete (.fbByteR off)
        (some (Config.draw8 s.draws)))
  | readOutside {off : FbOffset} (hout : s.params.fbSize ≤ off.toNat) :
      Effect s (.fbByteR off) ((s.raise .f3FbOutOfRange (.word (encode (.fbByteR off)))).draw.2.complete (.fbByteR off)
        (some (Config.draw8 s.draws)))

/-- The four kinds of index a CRTC data write tells apart (R157, R159). -/
theorem crtcIndex_cases (s : State) : s.crtcIndex = none ∨ s.crtcIndex = some 14 ∨ s.crtcIndex = some 15 ∨
    ∃ k, s.crtcIndex = some k ∧ k ≠ 14 ∧ k ≠ 15 := by
  cases hindex : s.crtcIndex with
  | none => exact .inl rfl
  | some k =>
    by_cases hhigh : k = 14
    · exact .inr (.inl (congrArg some hhigh))
    · by_cases hlow : k = 15
      · exact .inr (.inr (.inl (congrArg some hlow)))
      · exact .inr (.inr (.inr ⟨k, rfl, hhigh, hlow⟩))

section
variable {s : State} {i : Instr} {t : State}

/-- `exec` goes only as `Effect` lists. -/
theorem exec_effect (h : exec i s = .next t) : Effect s i t := by
  cases i
  case uartDataW v =>
    cases hdlab : s.dlab
    · rw [exec_uartDataW_thr s v hdlab] at h
      cases h
      obtain hroom | hfull := Nat.lt_or_ge s.txq.length s.cap
      · rw [thrWrite_accept hroom]
        exact .enqueued hdlab hroom
      · rw [thrWrite_drop hfull]
        exact .dropped hdlab hfull
    · rw [exec_uartDataW_divisor s v hdlab] at h
      cases h
      cases hptr : s.dlPtr
      · rw [divisorWrite_high hptr]
        exact .divisorHigh hdlab hptr
      · rw [divisorWrite_low hptr]
        exact .divisorLow hdlab hptr
  case uartFcrW v =>
    cases h
    by_cases hclear : fcrFifoe v ≠ s.fcr.fifoEn ∨ fcrTxclr v = true
    · rw [fcrWrite_clear hclear]
      exact .fifoCleared hclear
    · rw [fcrWrite_keep hclear]
      exact .fifoKept hclear
  case crtcDataW v =>
    cases h
    obtain hindex | hindex | hindex | ⟨k, hindex, hhigh, hlow⟩ := crtcIndex_cases s
    · rw [crtcDataWrite_unset hindex]
      exact .indexUnset hindex
    · rw [crtcDataWrite_high hindex]
      exact .cursorHigh hindex
    · rw [crtcDataWrite_low hindex]
      exact .cursorLow hindex
    · rw [crtcDataWrite_other hindex hhigh hlow]
      exact .refused
  case fbByteW off v =>
    rw [exec_fbByteW] at h
    cases h
    obtain hin | hout := Nat.lt_or_ge off.toNat s.params.fbSize
    · rw [fbWrite_inside hin]
      exact .stored hin
    · rw [fbWrite_outside hout]
      exact .writeOutside hout
  case fbByteR off =>
    rw [exec_fbByteR] at h
    cases h
    obtain hin | hout := Nat.lt_or_ge off.toNat s.params.fbSize
    · cases hread : s.fb.read off.toNat with
      | none =>
        rw [fbRead_unset hin hread]
        exact .readUnset hin hread
      | some v =>
        rw [fbRead_stored hin hread]
        exact .read hin hread
    · rw [fbRead_outside hout]
      exact .readOutside hout
  case uartLcrW v => cases h; exact .lcrWritten
  case uartLcrR => cases h; exact .lcrRead
  case uartMcrW v => cases h; exact .mcrWritten
  case uartMcrR => cases h; exact .mcrRead
  case uartLsrR => cases h; exact .lsrRead
  case crtcIndexW v => cases h; exact .indexWritten
  all_goals
    cases h
    exact .refused

/-! ### Which transactions change a register (R90 to R99, R155, R157, R170) -/

theorem Effect.lcr_changes (h : Effect s i t) (hne : t.lcr ≠ s.lcr) : i = .uartLcrW t.lcr := by
  cases h with
  | lcrWritten => rfl
  | _ => exact absurd rfl hne

theorem Effect.mcr_changes (h : Effect s i t) (hne : t.mcr ≠ s.mcr) : i = .uartMcrW t.mcr := by
  cases h with
  | mcrWritten => rfl
  | _ => exact absurd rfl hne

theorem Effect.dlHi_changes (h : Effect s i t) (hne : t.dlHi ≠ s.dlHi) :
    ∃ v, i = .uartDataW v ∧ s.dlab = true ∧ s.dlPtr = .high ∧ t.dlHi = some v := by
  cases h with
  | divisorHigh hdlab hptr => exact ⟨_, rfl, hdlab, hptr, rfl⟩
  | _ => exact absurd rfl hne

theorem Effect.dlLo_changes (h : Effect s i t) (hne : t.dlLo ≠ s.dlLo) :
    ∃ v, i = .uartDataW v ∧ s.dlab = true ∧ s.dlPtr = .low ∧ t.dlLo = some v := by
  cases h with
  | divisorLow hdlab hptr => exact ⟨_, rfl, hdlab, hptr, rfl⟩
  | _ => exact absurd rfl hne

theorem Effect.dlPtr_changes (h : Effect s i t) (hne : t.dlPtr ≠ s.dlPtr) :
    (∃ v, i = .uartLcrW v ∧ t.dlPtr = .high) ∨
      ∃ v, i = .uartDataW v ∧ s.dlab = true ∧ t.dlPtr = (if s.dlPtr = .high then .low else .high) := by
  cases h with
  | lcrWritten => exact .inl ⟨_, rfl, rfl⟩
  | divisorHigh hdlab hptr => exact .inr ⟨_, rfl, hdlab, (if_pos hptr).symm⟩
  | divisorLow hdlab hptr => exact .inr ⟨_, rfl, hdlab, (if_neg (by simp [hptr])).symm⟩
  | _ => exact absurd rfl hne

theorem Effect.fcr_changes (h : Effect s i t) (hne : t.fcr ≠ s.fcr) : ∃ v, i = .uartFcrW v ∧ t.fcr = fcrRetained v := by
  cases h with
  | fifoCleared | fifoKept => exact ⟨_, rfl, rfl⟩
  | _ => exact absurd rfl hne

theorem Effect.txq_changes (h : Effect s i t) (hne : t.txq ≠ s.txq) :
    (∃ v, i = .uartFcrW v ∧ (fcrFifoe v ≠ s.fcr.fifoEn ∨ fcrTxclr v = true) ∧ t.txq = []) ∨
      ∃ v, i = .uartDataW v ∧ s.dlab = false ∧ s.txq.length < s.cap ∧ t.txq = s.txq ++ [v] := by
  cases h with
  | fifoCleared hclear => exact .inl ⟨_, rfl, hclear, rfl⟩
  | enqueued hdlab hroom => exact .inr ⟨_, rfl, hdlab, hroom, rfl⟩
  | _ => exact absurd rfl hne

theorem Effect.crtcIndex_changes (h : Effect s i t) (hne : t.crtcIndex ≠ s.crtcIndex) :
    ∃ v, i = .crtcIndexW v ∧ t.crtcIndex = some v := by
  cases h with
  | indexWritten => exact ⟨_, rfl, rfl⟩
  | _ => exact absurd rfl hne

theorem Effect.cursorHi_changes (h : Effect s i t) (hne : t.cursorHi ≠ s.cursorHi) :
    ∃ v, i = .crtcDataW v ∧ s.crtcIndex = some 14 ∧ t.cursorHi = some v := by
  cases h with
  | cursorHigh hindex => exact ⟨_, rfl, hindex, rfl⟩
  | _ => exact absurd rfl hne

theorem Effect.cursorLo_changes (h : Effect s i t) (hne : t.cursorLo ≠ s.cursorLo) :
    ∃ v, i = .crtcDataW v ∧ s.crtcIndex = some 15 ∧ t.cursorLo = some v := by
  cases h with
  | cursorLow hindex => exact ⟨_, rfl, hindex, rfl⟩
  | _ => exact absurd rfl hne

theorem Effect.fb_changes (h : Effect s i t) (hne : t.fb ≠ s.fb) :
    ∃ off v, i = .fbByteW off v ∧ off.toNat < s.params.fbSize ∧ t.fb = s.fb.write off.toNat v := by
  cases h with
  | stored hin => exact ⟨_, _, rfl, hin, rfl⟩
  | _ => exact absurd rfl hne

/-- A byte that reads otherwise is the byte at the offset written. -/
theorem Effect.fb_read_changes {a : Nat} (h : Effect s i t) (hne : t.fb.read a ≠ s.fb.read a) :
    ∃ off v, i = .fbByteW off v ∧ a = off.toNat ∧ a < s.params.fbSize ∧ t.fb.read a = some v := by
  obtain ⟨off, v, hi, hin, hfb⟩ := h.fb_changes fun heq => hne (by rw [heq])
  rw [hfb] at hne ⊢
  have ha : a = off.toNat :=
    Decidable.byContradiction fun hother => hne (Memory.read_write_other s.fb v hother)
  subst ha
  exact ⟨off, v, hi, rfl, hin, Memory.read_write_same s.fb _ v⟩

/-- Settles O28: one clause per register, each off the list of effects. -/
theorem registersChangeOnlyByTheirWrites : Obligations.RegistersChangeOnlyByTheirWrites := by
  intro i s t h
  have he := exec_effect h
  exact ⟨he.lcr_changes, he.mcr_changes, he.dlHi_changes, he.dlLo_changes, he.dlPtr_changes, he.fcr_changes,
    he.txq_changes, he.crtcIndex_changes, he.cursorHi_changes, he.cursorLo_changes, fun _ => he.fb_read_changes⟩

end

/-! ### The other part of the block (R177) -/

section
variable {s : State} {i : Instr} {t : State}

theorem Effect.line_eq (h : Effect s i t) : t.line = s.line := by
  cases h <;> rfl

theorem Effect.sameUart (h : Effect s i t) (hi : isUart i = false) : SameUart s t := by
  cases h with
  | enqueued | dropped | divisorHigh | divisorLow | fifoCleared | fifoKept | lcrWritten | mcrWritten => cases hi
  | _ => exact ⟨rfl, rfl, rfl, rfl, rfl, rfl, rfl, rfl⟩

theorem Effect.fb_eq (h : Effect s i t) (hi : rowNumber i ≠ 21) : t.fb = s.fb := by
  cases h with
  | stored => exact absurd rfl hi
  | _ => rfl

theorem Effect.sameVga (h : Effect s i t) (hi : isVga i = false) : SameVga s t := by
  cases h with
  | indexWritten | cursorHigh | cursorLow | stored => cases hi
  | _ => exact ⟨rfl, rfl, rfl, rfl⟩

theorem isVga_eq_false_of_isUart (hi : isUart i = true) : isVga i = false := by
  simp only [isUart, isVga, decide_eq_true_eq, Bool.and_eq_false_iff, decide_eq_false_iff_not] at hi ⊢
  omega

theorem isUart_eq_false_of_isVga (hi : isVga i = true) : isUart i = false := by
  cases hu : isUart i with
  | false => rfl
  | true =>
    rw [isVga_eq_false_of_isUart hu] at hi
    cases hi

/-- Settles O27: a transaction off the UART keeps the UART, and one off the display keeps the display. -/
theorem transactionsKeepTheOtherPart : Obligations.TransactionsKeepTheOtherPart := by
  intro i s t h
  have he := exec_effect h
  obtain ⟨hparams, hpending, hhpos, hturns, hdraws, -⟩ := exec_keeps_host h
  refine ⟨⟨hparams.symm, hpending.symm, hhpos.symm, hturns.symm, hdraws.symm⟩, he.line_eq, ?uart, ?vga, ?neither⟩
  case uart =>
    intro hu
    have hrow : rowNumber i ≠ 21 := fun hrow => by simp [isUart, hrow] at hu
    exact ⟨he.sameVga (isVga_eq_false_of_isUart hu), fun a => by rw [he.fb_eq hrow]⟩
  case vga =>
    intro hv
    exact ⟨he.sameUart (isUart_eq_false_of_isVga hv), fun hrow a => by rw [he.fb_eq hrow]⟩
  case neither => exact fun hu hv => ⟨he.sameUart hu, he.sameVga hv⟩

end

/-! ### The last byte written to an offset (R61 e) -/

section
variable {s t : State} {w : Word} {ws : List Word}

theorem execWords_cons_inv (h : execWords (w :: ws) s = .next t) :
    ∃ u, exec (decode w) s = .next u ∧ execWords ws u = .next t := by
  obtain ⟨u, hu⟩ := exec_next (decode w) s
  exact ⟨u, hu, (execWords_cons hu).symm.trans h⟩

/-- Words that do not write an offset leave its byte, and the parameters. -/
theorem execWords_keeps_byte {off : FbOffset} (hws : ∀ w ∈ ws, ∀ v, decode w ≠ .fbByteW off v)
    (h : execWords ws s = .next t) : t.fb.read off.toNat = s.fb.read off.toNat ∧ t.params = s.params := by
  induction ws generalizing s with
  | nil =>
    cases h
    exact ⟨rfl, rfl⟩
  | cons w ws ih =>
    obtain ⟨hw, hws⟩ := List.forall_mem_cons.mp hws
    obtain ⟨u, hu, hrest⟩ := execWords_cons_inv h
    obtain ⟨hread, hparams⟩ := ih hws hrest
    have hkept : u.fb.read off.toNat = s.fb.read off.toNat := by
      refine Decidable.byContradiction fun hne => ?_
      obtain ⟨off', v, hi, hoff, -⟩ := (exec_effect hu).fb_read_changes hne
      exact hw v (by rw [hi, BitVec.eq_of_toNat_eq hoff])
    exact ⟨hread.trans hkept, hparams.trans (exec_keeps_params hu)⟩

/-- Settles O26: the byte stored first is still there when the read comes. -/
theorem fbReadReturnsLastWrite : Obligations.FbReadReturnsLastWrite := by
  intro s t off v ws hin hws h
  obtain ⟨u, hu, hrest⟩ := execWords_cons_inv h
  rw [decode_fbw, exec_fbByteW, fbWrite_inside hin] at hu
  cases hu
  obtain ⟨hread, hparams⟩ := execWords_keeps_byte hws hrest
  have hstored : t.fb.read off.toNat = some v := hread.trans (Memory.read_write_same s.fb _ v)
  have hin' : off.toNat < t.params.fbSize := by rw [hparams]; exact hin
  rw [exec_fbByteR, fbRead_stored hin' hstored]
  rfl

end

/-! ### Neither part sees the other (R177) -/

/-- The state with the display and the host's side blanked: what a UART transaction can see. -/
def State.uartView (s : State) : State :=
  { s with crtcIndex := none, cursorHi := none, cursorLo := none, fb := []
           pending := [], hpos := 0, turns := [], turnDraws := 0 }

/-- The state with the UART and the host's side blanked: what a display transaction can see. -/
def State.vgaView (s : State) : State :=
  { s with lcr := 0, dlHi := none, dlLo := none, dlPtr := .high, fcr := ⟨false, false, 0⟩, mcr := 0, txq := [], line := []
           pending := [], hpos := 0, turns := [], turnDraws := 0 }

section
variable {s s' : State} (hparams : s.params = s'.params) (hdraws : s.draws = s'.draws) (htrace : s.trace = s'.trace)
  (hout : SameOutcomes s s')
include hparams hdraws htrace hout

theorem uartView_congr (hsame : SameUart s s') : s.uartView = s'.uartView := by
  obtain ⟨h1, h2, h3, h4, h5, h6, h7, h8⟩ := hsame
  obtain ⟨h9, h10, h11⟩ := hout
  simp only [State.uartView, hparams, hdraws, htrace, h1, h2, h3, h4, h5, h6, h7, h8, h9, h10, h11]

theorem vgaView_congr (hsame : SameVga s s') : s.vgaView = s'.vgaView := by
  obtain ⟨h1, h2, h3, h4⟩ := hsame
  obtain ⟨h5, h6, h7⟩ := hout
  simp only [State.vgaView, hparams, hdraws, htrace, h1, h2, h3, h4, h5, h6, h7]

end

section
variable {s s' : State}

theorem of_uartView_eq (h : s.uartView = s'.uartView) :
    SameUart s s' ∧ SameOutcomes s s' ∧ s.trace = s'.trace := by
  simp only [State.uartView, State.mk.injEq] at h
  simp only [SameUart, SameOutcomes, h, and_self]

theorem of_vgaView_eq (h : s.vgaView = s'.vgaView) :
    SameVga s s' ∧ SameOutcomes s s' ∧ s.trace = s'.trace := by
  simp only [State.vgaView, State.mk.injEq] at h
  simp only [SameVga, SameOutcomes, h, and_self]

end

section
variable {i : Instr} (s : State)

/-- A UART transaction does to the view what it does to the state. -/
theorem exec_uartView (hi : isUart i = true) : exec i s.uartView = mapNext State.uartView (exec i s) := by
  cases i
  case uartDataW v =>
    cases hdlab : s.dlab
    · rw [exec_uartDataW_thr s v hdlab, exec_uartDataW_thr s.uartView v hdlab]
      obtain hroom | hfull := Nat.lt_or_ge s.txq.length s.cap
      · rw [thrWrite_accept hroom, thrWrite_accept (s := s.uartView) hroom]
        rfl
      · rw [thrWrite_drop hfull, thrWrite_drop (s := s.uartView) hfull]
        rfl
    · rw [exec_uartDataW_divisor s v hdlab, exec_uartDataW_divisor s.uartView v hdlab]
      cases hptr : s.dlPtr
      · rw [divisorWrite_high hptr, divisorWrite_high (s := s.uartView) hptr]
        rfl
      · rw [divisorWrite_low hptr, divisorWrite_low (s := s.uartView) hptr]
        rfl
  case crtcIndexW | crtcIndexR | crtcDataW | crtcDataR | fbByteW | fbByteR | ioUndecodedW | ioUndecodedR | malformed =>
    cases hi
  all_goals rfl

/-- A display transaction does to the view what it does to the state. -/
theorem exec_vgaView (hi : isVga i = true) : exec i s.vgaView = mapNext State.vgaView (exec i s) := by
  cases i
  case crtcIndexW | crtcIndexR | crtcDataR => rfl
  case crtcDataW v =>
    rw [exec_crtcDataW, exec_crtcDataW]
    obtain hindex | hindex | hindex | ⟨k, hindex, hhigh, hlow⟩ := crtcIndex_cases s
    · rw [crtcDataWrite_unset hindex, crtcDataWrite_unset (s := s.vgaView) hindex]
      rfl
    · rw [crtcDataWrite_high hindex, crtcDataWrite_high (s := s.vgaView) hindex]
      rfl
    · rw [crtcDataWrite_low hindex, crtcDataWrite_low (s := s.vgaView) hindex]
      rfl
    · rw [crtcDataWrite_other hindex hhigh hlow, crtcDataWrite_other (s := s.vgaView) hindex hhigh hlow]
      rfl
  case fbByteW off v =>
    rw [exec_fbByteW, exec_fbByteW]
    obtain hin | hout := Nat.lt_or_ge off.toNat s.params.fbSize
    · rw [fbWrite_inside hin, fbWrite_inside (s := s.vgaView) hin]
      rfl
    · rw [fbWrite_outside hout, fbWrite_outside (s := s.vgaView) hout]
      rfl
  case fbByteR off =>
    rw [exec_fbByteR, exec_fbByteR]
    obtain hin | hout := Nat.lt_or_ge off.toNat s.params.fbSize
    · cases hread : s.fb.read off.toNat with
      | none =>
        rw [fbRead_unset hin hread, fbRead_unset (s := s.vgaView) hin hread]
        rfl
      | some v =>
        rw [fbRead_stored hin hread, fbRead_stored (s := s.vgaView) hin hread]
        rfl
    · rw [fbRead_outside hout, fbRead_outside (s := s.vgaView) hout]
      rfl
  all_goals cases hi

end

/-- Where a view determines the transaction, equal views lead to equal views. -/
theorem view_next_congr {view : State → State} {i : Instr} {s s' t t' : State}
    (hview : ∀ s, exec i (view s) = mapNext view (exec i s)) (hs : view s = view s') (h : exec i s = .next t)
    (h' : exec i s' = .next t') : view t = view t' := by
  have hexec := hview s
  rw [hs, hview s', h, h'] at hexec
  exact (Host.Outcome.next.inj hexec).symm

/-- Settles O29: a transaction of either part runs the same on that part's view. -/
theorem partsDoNotInfluenceEachOther : Obligations.PartsDoNotInfluenceEachOther := by
  intro i s s' t t' hparams hdraws h h' htrace
  constructor
  · intro hv hsame hout
    exact of_vgaView_eq (view_next_congr (fun s => exec_vgaView s hv)
      (vgaView_congr hparams hdraws htrace hout hsame) h h')
  · intro hu hsame hout
    exact of_uartView_eq (view_next_congr (fun s => exec_uartView s hu)
      (uartView_congr hparams hdraws htrace hout hsame) h h')

/-! ### One fault or one refusal (R186, R187, R190) -/

/-- R33, R186: setting a code's bit leaves every other. -/
theorem FaultSet.has_set (f : FaultSet) (c c' : FaultCode) :
    (f.set c).has c' = true ↔ f.has c' = true ∨ c' = c := by
  cases c <;> cases c' <;> simp [FaultSet.set, FaultSet.has]

section
variable {s : State} {i : Instr} {t : State}

/-- A transaction is refused, or it completes with no fault, or it completes with one fault it may raise. -/
theorem Effect.outcome (h : Effect s i t) :
    (∃ x, t = s.refuse x) ∨
    (t.refused = s.refused ∧ (∃ r, t.trace = s.trace ++ [⟨encode i, r⟩]) ∧
      (t.faultLog = s.faultLog ∧ t.faults = s.faults ∨
        ∃ c, FaultRecord.ok ⟨c, .word (encode i)⟩ = true ∧ t.faultLog = s.faultLog ++ [⟨c, .word (encode i)⟩] ∧
          t.faults = s.faults.set c)) := by
  have hback : WellFormed i = true → decode (encode i) = i := decodeInvertsEncode i
  cases h with
  | refused => exact .inl ⟨_, rfl⟩
  | dropped | indexUnset | writeOutside | readUnset | readOutside =>
    exact .inr ⟨rfl, ⟨_, rfl⟩, .inr ⟨_, by simp [FaultRecord.ok, hback rfl, rowNumber], rfl, rfl⟩⟩
  | _ => exact .inr ⟨rfl, ⟨_, rfl⟩, .inl ⟨rfl, rfl⟩⟩

/-- Settles O30: the three outcomes of a transaction, the second with its one record. -/
theorem atMostOneFaultOrRefusal : Obligations.AtMostOneFaultOrRefusal := by
  intro i s t h
  obtain ⟨x, rfl⟩ | ⟨hrefused, -, ⟨hlog, hfaults⟩ | ⟨c, -, hlog, hfaults⟩⟩ := (exec_effect h).outcome
  · exact .inr (.inr ⟨x, rfl⟩)
  · exact .inl ⟨hrefused, hlog, hfaults⟩
  · refine .inr (.inl ⟨hrefused, _, hlog, rfl, fun c' => ?_⟩)
    rw [hfaults, FaultSet.has_set]

end

/-- Settles O18: the catch-all rows are `refuse` with their codes. -/
theorem catchAllRowsRefuse : Obligations.CatchAllRowsRefuse := by
  intro s port v w
  exact ⟨exec_ioUndecodedW s v port, exec_ioUndecodedR s port, exec_malformed s w⟩

end Sys2Proof.Machine
end

section
/-! PROOFS. The transmitter's step (spec/41_uart_transmitter.md R120 to R123): what blocks it, in order, and what it does when
nothing does. -/

namespace Sys2Proof.Machine

variable {s : State}

/-! ### What blocks a transmitter step (R122, R123) -/

theorem txBlock_of_loop (hloop : mcrLoop s.mcr = true) : s.txBlock = some .x9TxLoopback := if_pos hloop

theorem txBlock_of_break (hloop : mcrLoop s.mcr = false) (hbrk : lcrBrk s.lcr = true) :
    s.txBlock = some .x10TxBreak := by
  simp [State.txBlock, hloop, hbrk]

theorem txBlock_of_no_divisor (hloop : mcrLoop s.mcr = false) (hbrk : lcrBrk s.lcr = false)
    (hdl : s.dl = none ∨ s.dl = some 0) : s.txBlock = some .x11TxDivisor := by
  obtain hdl | hdl := hdl <;> simp [State.txBlock, hloop, hbrk, hdl]

/-- An unblocked transmitter has loopback and break off and a divisor to send with. -/
theorem unblocked_of_txBlock (h : s.txBlock = none) :
    mcrLoop s.mcr = false ∧ lcrBrk s.lcr = false ∧ ∃ d, s.dl = some d ∧ d ≠ 0 := by
  cases hloop : mcrLoop s.mcr
  case true =>
    rw [txBlock_of_loop hloop] at h
    cases h
  cases hbrk : lcrBrk s.lcr
  case true =>
    rw [txBlock_of_break hloop hbrk] at h
    cases h
  cases hdl : s.dl with
  | none =>
    rw [txBlock_of_no_divisor hloop hbrk (.inl hdl)] at h
    cases h
  | some d =>
    refine ⟨rfl, rfl, d, rfl, ?_⟩
    rintro rfl
    rw [txBlock_of_no_divisor hloop hbrk (.inr hdl)] at h
    cases h

/-! ### The obligations -/

/-- Settles O32: two set bytes that are not both zero pair up to the divisor an unblocked step needs. -/
theorem txStepMovesTheHead : Obligations.TxStepMovesTheHead := by
  intro s v rest h l _ hq hloop hbrk hh hl hz
  have hne : pair h l ≠ 0 := mt (pair_eq_zero_iff h l).mp hz
  have hstep := txStep_emit hq hloop hbrk (State.dl_of_set hh hl) hne
  refine ⟨hstep, ?_⟩
  rw [hstep]
  exact State.thre_eq_true_iff

/-- Settles O33: with the queue empty nothing is enabled, and else what blocks the step is what it is refused with. -/
theorem txStepRefusalsInOrder : Obligations.TxStepRefusalsInOrder := by
  intro s _
  refine ⟨?empty, ?loop, ?brk, ?divisor⟩
  case empty =>
    intro hq
    exact ⟨by simp [State.txEnabled, hq], by simp [State.txStep, hq]⟩
  case loop => exact fun hq hloop => txStep_blocked hq (txBlock_of_loop hloop)
  case brk => exact fun hq hloop hbrk => txStep_blocked hq (txBlock_of_break hloop hbrk)
  case divisor =>
    intro hq hloop hbrk hdl
    have hdl : s.dl = none ∨ s.dl = some 0 := by
      obtain hh | hl | ⟨hh, hl⟩ := hdl
      · exact .inl (State.dl_of_unset (.inl hh))
      · exact .inl (State.dl_of_unset (.inr hl))
      · exact .inr (State.dl_of_set hh hl)
    exact txStep_blocked hq (txBlock_of_no_divisor hloop hbrk hdl)

end Sys2Proof.Machine
end

section
/-! PROOFS. What one step does, said once (spec/20_memory.md R57, R60): `StepEffect` lists every way a step of either agent can
go, with its condition and its next state. -/

namespace Sys2Proof.Machine

/-- The state after one line-status read (R101). -/
def State.polled (s : State) : State :=
  { s with
    trace := s.trace ++ [⟨encode .uartLsrR, some (lsrWithThre (Config.draw8 s.draws) s.thre)⟩]
    draws := s.draws + 1 }

theorem lsrRead_complete (s : State) : s.lsrRead.2.complete .uartLsrR (some s.lsrRead.1) = s.polled := rfl

/-- The ways a step from `s` can go, with the next state of each. The turns used, `ts` and `n`, are left free. -/
inductive StepEffect (s : State) : State → Prop where
  | completed {ts : List Agent} {n : Nat} {w : Word} {rest : List HostOp} {u : State}
      (hp : s.pending = .transaction w :: rest) (hexec : exec (decode w) (s.setTurns ts n) = .next u)
      (hr : u.refused = none) : StepEffect s u.advance
  | refused {ts : List Agent} {n : Nat} {w : Word} {rest : List HostOp} {x : RefusalCode}
      (hp : s.pending = .transaction w :: rest)
      (hexec : exec (decode w) (s.setTurns ts n) = .next ((s.setTurns ts n).refuse x)) :
      StepEffect s ((s.setTurns ts n).refuse x)
  | pollReady {ts : List Agent} {n : Nat} {rest : List HostOp} (hp : s.pending = .pollTxReady :: rest)
      (hq : s.txq = []) : StepEffect s (s.setTurns ts n).polled.advance
  | pollWaiting {ts : List Agent} {n : Nat} {rest : List HostOp} (hp : s.pending = .pollTxReady :: rest)
      (hq : s.txq ≠ []) : StepEffect s (s.setTurns ts n).polled
  | cellFault {ts : List Agent} {n : Nat} {off : FbOffset} {rest : List HostOp} (hp : s.pending = .cellCheck off :: rest)
      (hodd : oddOffset off = true) :
      StepEffect s { (s.setTurns ts n).raise .f5CellMisaligned (.offset off) with pending := s.pending.tail }
  | cellPassed {ts : List Agent} {n : Nat} {off : FbOffset} {rest : List HostOp} (hp : s.pending = .cellCheck off :: rest) :
      StepEffect s { s.setTurns ts n with pending := s.pending.tail }
  | emitted {ts : List Agent} {n : Nat} {v : Byte} {rest : List Byte} {d : BitVec 16} (hq : s.txq = v :: rest)
      (hd : s.dl = some d) (hd0 : d ≠ 0) :
      StepEffect s { s.setTurns ts n with txq := rest, line := s.line ++ [⟨v, lcrFmt s.lcr, d⟩] }
  | blocked {ts : List Agent} {n : Nat} {x : RefusalCode} (hq : s.txq ≠ []) (hx : s.txBlock = some x) :
      StepEffect s ((s.setTurns ts n).refuse x)
  | stalled {ts : List Agent} {n : Nat} (hp : s.pending = []) (hq : s.txq ≠ []) (hunfair : s.params.txFair = false) :
      StepEffect s (s.setTurns ts n)

section
variable {s t : State} {ts : List Agent} {n : Nat}

theorem txEnabled_iff : s.txEnabled = true ↔ s.txq ≠ [] ∧ s.refused = none := by
  simp [State.txEnabled]

/-- Past a poll, by whether the queue was empty (R140). -/
theorem afterPoll_polled (s : State) : s.polled.afterPoll = if s.txq = [] then s.polled.advance else s.polled := by
  rw [← lsrRead_complete, afterPoll_complete, State.lsrRead_value, readyBit_lsrWithThre]
  simp only [State.thre_eq_true_iff]

theorem stepEffect_of_transaction {w : Word} {rest : List HostOp} {u : State} (hr : s.refused = none)
    (hp : s.pending = .transaction w :: rest) (hu : exec (decode w) (s.setTurns ts n) = .next u) :
    StepEffect s u.afterTransaction := by
  rw [State.afterTransaction]
  obtain ⟨x, rfl⟩ | ⟨hkept, -⟩ := (exec_effect hu).outcome
  · exact .refused hp hu
  · have hnone : u.refused = none := hkept.trans hr
    rw [hnone]
    exact .completed hp hu hnone

theorem stepEffect_of_cellCheck {off : FbOffset} {rest : List HostOp} (hp : s.pending = .cellCheck off :: rest) :
    StepEffect s ((s.setTurns ts n).cellCheckStep off) := by
  rw [State.cellCheckStep]
  cases hodd : oddOffset off
  · exact .cellPassed hp
  · exact .cellFault hp hodd

theorem stepEffect_of_txStep (hq : s.txq ≠ []) : StepEffect s (s.setTurns ts n).txStep := by
  cases hx : s.txBlock with
  | some x =>
    rw [txStep_blocked (s := s.setTurns ts n) hq hx]
    exact .blocked hq hx
  | none =>
    obtain ⟨hloop, hbrk, d, hd, hd0⟩ := unblocked_of_txBlock hx
    obtain ⟨v, rest, hvs⟩ := List.exists_cons_of_ne_nil hq
    rw [txStep_emit (s := s.setTurns ts n) hvs hloop hbrk hd hd0]
    exact .emitted hvs hd hd0

/-- `step` goes on only as `StepEffect` lists. -/
theorem step_effect (h : step s = .next t) : s.refused = none ∧ StepEffect s t := by
  obtain ⟨hr, ts, n, ⟨-, hhost⟩ | ⟨-, henabled, rfl⟩ | ⟨hmove, rfl⟩⟩ := step_cases h
  · refine ⟨hr, ?_⟩
    obtain ⟨w, rest, u, hp, hu, rfl⟩ | ⟨rest, hp, rfl⟩ | ⟨off, rest, hp, rfl⟩ := hostStep_cases hhost
    · exact stepEffect_of_transaction hr hp hu
    · rw [lsrRead_complete, afterPoll_polled]
      split
      · next hq => exact .pollReady hp hq
      · next hq => exact .pollWaiting hp hq
    · exact stepEffect_of_cellCheck hp
  · obtain ⟨hq, -⟩ := txEnabled_iff.mp henabled
    exact ⟨hr, stepEffect_of_txStep hq⟩
  · obtain ⟨hp, henabled, hunfair⟩ : s.pending = [] ∧ s.txEnabled = true ∧ s.params.txFair = false := by
      simpa [hmove] using nextMove_cases s
    obtain ⟨hq, -⟩ := txEnabled_iff.mp henabled
    exact ⟨hr, .stalled hp hq hunfair⟩

end

/-! ### The end of a run (R226, R227) -/

section
variable {s : State}

/-- With an operation left the host has a step. -/
theorem hostStep_next (hp : s.pending ≠ []) : ∃ t, s.hostStep = .next t := by
  obtain ⟨op, rest, hp⟩ := List.exists_cons_of_ne_nil hp
  cases op with
  | transaction w =>
    obtain ⟨u, hu⟩ := exec_next (decode w) s
    exact ⟨_, by rw [State.hostStep, hp]; exact congrArg (mapNext _) hu⟩
  | pollTxReady => exact ⟨_, by rw [State.hostStep, hp]; rfl⟩
  | cellCheck off => exact ⟨_, hostStep_cellCheck hp⟩

/-- An unrefused state goes on, or the host is done and the queue is drained. -/
theorem step_next_or_ended (hr : s.refused = none) :
    (∃ t, step s = .next t) ∨ step s = .fault .runEnded ∧ s.pending = [] ∧ s.txq = [] := by
  obtain ⟨ts, n, hstate⟩ := nextMove_state s
  rw [step_eq s hr, hstate]
  obtain ⟨hc, hp⟩ | ⟨hc, -⟩ | ⟨hc, -⟩ | ⟨hc, hp, henabled⟩ := nextMove_cases s <;> rw [hc]
  · exact .inl (hostStep_next hp)
  · exact .inl ⟨_, rfl⟩
  · exact .inl ⟨_, rfl⟩
  · refine .inr ⟨rfl, hp, ?_⟩
    refine Decidable.byContradiction fun hq => ?_
    rw [txEnabled_iff.mpr ⟨hq, hr⟩] at henabled
    cases henabled

theorem step_drained (hr : s.refused = none) (hp : s.pending = []) (hq : s.txq = []) : step s = .fault .runEnded := by
  simp [step, hr, State.nextMove, State.txEnabled, hp, hq]

/-- Settles O40: the step of an unrefused state that is no next state is the end of the run. -/
theorem runEndsExactlyWhenDrained : Obligations.RunEndsExactlyWhenDrained := by
  intro s hr
  constructor
  · intro hend
    obtain ⟨t, ht⟩ | ⟨-, hdone⟩ := step_next_or_ended hr
    · rw [ht] at hend
      cases hend
    · exact hdone
  · rintro ⟨hp, hq⟩
    exact step_drained hr hp hq

end

/-! ### The queue over a step (R61 d, R127) -/

section
variable {s t : State}

/-- A step leaves the queue, or it is a data write that is accepted, an FCR write that clears, or an event on the line. -/
theorem StepEffect.queue (h : StepEffect s t) :
    (t.txq = s.txq ∧ t.line = s.line) ∨
    (∃ w v rest, s.pending = .transaction w :: rest ∧ decode w = .uartDataW v ∧ s.dlab = false ∧ t.line = s.line ∧
      t.txq = s.txq ++ [v]) ∨
    (∃ w v rest, s.pending = .transaction w :: rest ∧ decode w = .uartFcrW v ∧ t.line = s.line ∧
      (fcrFifoe v ≠ s.fcr.fifoEn ∨ fcrTxclr v = true) ∧ t.txq = []) ∨
    (∃ e, s.txq = e.v :: t.txq ∧ t.line = s.line ++ [e]) := by
  cases h with
  | @completed _ _ _ _ u hp hexec =>
    have hu := exec_effect hexec
    by_cases hsame : u.txq = s.txq
    · exact .inl ⟨hsame, hu.line_eq⟩
    · obtain ⟨v, hi, hclear, hq⟩ | ⟨v, hi, hdlab, -, hq⟩ := hu.txq_changes hsame
      · exact .inr (.inr (.inl ⟨_, v, _, hp, hi, hu.line_eq, hclear, hq⟩))
      · exact .inr (.inl ⟨_, v, _, hp, hi, hdlab, hu.line_eq, hq⟩)
  | emitted hq => exact .inr (.inr (.inr ⟨_, hq, rfl⟩))
  | _ => exact .inl ⟨rfl, rfl⟩

/-- Settles O41: of the ways the queue can change, one fills it and two empty it. -/
theorem threChangesOnlyAsListed : Obligations.ThreChangesOnlyAsListed := by
  intro s t h
  obtain ⟨-, he⟩ := step_effect h
  rw [State.thre_eq_true_iff, State.thre_eq_false_iff, State.thre_eq_false_iff, State.thre_eq_true_iff]
  obtain ⟨hkept, -⟩ | ⟨w, v, rest, hp, hw, hdlab, -, hgain⟩ | ⟨w, v, rest, hp, hw, hline, hclear, hempty⟩ |
    ⟨e, hhead, hline⟩ := he.queue
  · exact ⟨fun hs ht => absurd (hkept.trans hs) ht, fun hs ht => absurd (hkept.symm.trans ht) hs⟩
  · refine ⟨fun hs _ => ⟨w, v, rest, hp, hw, hdlab, by rw [hgain, hs]; rfl⟩, fun _ ht => ?_⟩
    exact absurd (hgain.symm.trans ht) (List.append_ne_nil_of_right_ne_nil _ (List.cons_ne_nil _ _))
  · exact ⟨fun _ ht => absurd hempty ht, fun _ _ => .inr ⟨w, v, rest, hp, hw, hline, hclear⟩⟩
  · refine ⟨fun hs _ => ?_, fun _ ht => .inl ⟨e.v, e, by rw [hhead, ht], hline, rfl⟩⟩
    rw [hhead] at hs
    cases hs

/-- Settles O42: an event takes its byte from the queue's head to the line's end. -/
theorem bytesLeaveInOrder : Obligations.BytesLeaveInOrder := by
  intro s t h
  obtain ⟨-, he⟩ := step_effect h
  obtain ⟨hkept, hline⟩ | ⟨w, v, rest, hp, hw, -, hline, hgain⟩ | ⟨w, v, rest, hp, hw, hline, -, hempty⟩ |
    ⟨e, hhead, hline⟩ := he.queue
  · exact .inl (by rw [hkept, hline])
  · exact .inr (.inl ⟨w, v, rest, hp, hw, hline, hgain⟩)
  · exact .inr (.inr ⟨w, v, rest, hp, hw, hline, hempty⟩)
  · left
    rw [hline, hhead]
    simp

end

end Sys2Proof.Machine
end

section
/-! PROOFS. The invariant (spec/10_state.md, spec/60_exceptions.md R186, R193), at reset and over every step, and what a step
only extends (R30, R33, R188). -/

namespace Sys2Proof.Machine

/-! ### The faults and their records (R186, R193) -/

/-- `FAULTS` is the union of the recorded codes, and each record is one R186 allows. -/
def FaultsRecorded (f : FaultSet) (log : List FaultRecord) : Prop :=
  (∀ c, f.has c = true ↔ ∃ r ∈ log, r.code = c) ∧ ∀ r ∈ log, r.ok = true

theorem FaultsRecorded.raise {f : FaultSet} {log : List FaultRecord} (h : FaultsRecorded f log) {r : FaultRecord}
    (hr : r.ok = true) : FaultsRecorded (f.set r.code) (log ++ [r]) := by
  obtain ⟨hbits, hok⟩ := h
  constructor
  · intro c
    rw [FaultSet.has_set, hbits]
    simp [List.mem_append, or_and_right, exists_or, eq_comm]
  · intro r' hr'
    obtain hold | rfl := by simpa using hr'
    · exact hok r' hold
    · exact hr

/-! ### A transaction keeps each part of the invariant -/

section
variable {s t : State} {i : Instr}

theorem Effect.queue_within (h : Effect s i t) (hs : s.txq.length ≤ s.cap) : t.txq.length ≤ t.cap := by
  cases h with
  | enqueued hdlab hroom =>
    rw [State.complete_txq, List.length_append]
    exact hroom
  | fifoCleared => exact Nat.zero_le _
  | fifoKept hkeep =>
    have hsame : fcrFifoe _ = s.fcr.fifoEn := Decidable.not_not.mp (not_or.mp hkeep).1
    rw [← fcrWrite_keep hkeep, State.complete_cap, fcrWrite_cap_of_same_enable hsame, fcrWrite_keep hkeep]
    exact hs
  | _ => exact hs

theorem Effect.fb_within (h : Effect s i t) (hform : s.fb.wf = true)
    (hrange : ∀ a, s.params.fbSize ≤ a → s.fb.read a = none) :
    t.fb.wf = true ∧ ∀ a, s.params.fbSize ≤ a → t.fb.read a = none := by
  by_cases hsame : t.fb = s.fb
  · rw [hsame]
    exact ⟨hform, hrange⟩
  · obtain ⟨off, v, -, hin, hfb⟩ := h.fb_changes hsame
    rw [hfb]
    exact ⟨Memory.wf_write s.fb _ v hform, Memory.write_within s.fb v hin hrange⟩

theorem Effect.faultsRecorded (h : Effect s i t) (hs : FaultsRecorded s.faults s.faultLog) :
    FaultsRecorded t.faults t.faultLog := by
  obtain ⟨x, rfl⟩ | ⟨-, -, ⟨hlog, hfaults⟩ | ⟨c, hok, hlog, hfaults⟩⟩ := h.outcome
  · exact hs
  · rw [hlog, hfaults]
    exact hs
  · rw [hlog, hfaults]
    exact hs.raise hok

/-- A completed transaction is one more entry of the trace. -/
theorem Effect.trace_of_completed (h : Effect s i t) (hr : t.refused = none) :
    ∃ r, t.trace = s.trace ++ [⟨encode i, r⟩] := by
  obtain ⟨x, rfl⟩ | ⟨-, htrace, -⟩ := h.outcome
  · cases hr
  · exact htrace

end

/-! ### The invariant -/

section
variable {s t : State}

theorem Inv.setTurns (hs : Inv s) (ts : List Agent) (n : Nat) : Inv (s.setTurns ts n) :=
  ⟨hs.params, hs.queue, hs.fbForm, hs.fbRange, hs.faultBits, hs.faultRecords, hs.position⟩

/-- A completed transaction and the host's move past it. -/
theorem Inv.completed {i : Instr} (hs : Inv s) (h : exec i s = .next t) (hr : t.refused = none) : Inv t.advance := by
  have he := exec_effect h
  obtain ⟨hkept, -, hhpos, -⟩ := exec_keeps_host h
  obtain ⟨hform, hrange⟩ := he.fb_within hs.fbForm hs.fbRange
  obtain ⟨hbits, hrecords⟩ := he.faultsRecorded ⟨hs.faultBits, hs.faultRecords⟩
  obtain ⟨r, htrace⟩ := he.trace_of_completed hr
  refine ⟨?params, he.queue_within hs.queue, hform, ?range, hbits, hrecords, ?position⟩
  case params =>
    rw [State.advance_params, hkept]
    exact hs.params
  case range =>
    rw [State.advance_params, hkept]
    exact hrange
  case position =>
    have := hs.position
    rw [State.advance_hpos, State.advance_trace, hhpos, htrace, List.length_append]
    exact Nat.succ_le_succ this

theorem stepEffect_keeps_inv (hs : Inv s) (h : StepEffect s t) : Inv t := by
  have hturns := hs.setTurns
  obtain ⟨hparams, hqueue, hform, hrange, hbits, hrecords, hpos⟩ := hs
  cases h with
  | completed _ hexec hr => exact (hturns _ _).completed hexec hr
  | pollReady =>
    refine ⟨hparams, hqueue, hform, hrange, hbits, hrecords, ?_⟩
    rw [State.advance_hpos, State.advance_trace, State.polled, List.length_append]
    exact Nat.succ_le_succ hpos
  | pollWaiting =>
    refine ⟨hparams, hqueue, hform, hrange, hbits, hrecords, ?_⟩
    rw [State.polled, List.length_append]
    exact Nat.le_add_right_of_le hpos
  | cellFault hp hodd =>
    obtain ⟨hbits, hrecords⟩ := FaultsRecorded.raise ⟨hbits, hrecords⟩ (r := ⟨.f5CellMisaligned, .offset _⟩) hodd
    exact ⟨hparams, hqueue, hform, hrange, hbits, hrecords, hpos⟩
  | emitted hq =>
    rw [hq] at hqueue
    exact ⟨hparams, Nat.le_of_succ_le hqueue, hform, hrange, hbits, hrecords, hpos⟩
  | refused | cellPassed | blocked | stalled => exact ⟨hparams, hqueue, hform, hrange, hbits, hrecords, hpos⟩

/-- Settles O3: each way a step can go keeps every part. -/
theorem stepKeepsInvariant : Obligations.StepKeepsInvariant := by
  intro s t hs h
  obtain ⟨-, he⟩ := step_effect h
  exact stepEffect_keeps_inv hs he

/-- Settles O2: the free parameters are built to be admitted, and the rest is empty. -/
theorem resetMeetsInvariant : Obligations.ResetMeetsInvariant := by
  have hparams : Config.resetParams.ok := by
    have := Nat.mod_lt Config.fbCellChoice (show 0 < 2 ^ 20 by decide)
    simp only [Config.Params.ok, Config.resetParams]
    omega
  refine ⟨hparams, Nat.zero_le _, rfl, fun a _ => Memory.read_nil a, ?bits, ?records, Nat.le_refl 0⟩
  case bits =>
    intro c
    rw [State.reset, FaultSet.has_empty]
    simp
  case records => exact fun r hr => absurd hr List.not_mem_nil

end

/-! ### What a step only extends (R30, R33, R188) -/

section
variable {s t : State} {i : Instr}

theorem Effect.trace_extends (h : Effect s i t) : ∃ l, t.trace = s.trace ++ l := by
  obtain ⟨x, rfl⟩ | ⟨-, ⟨r, htrace⟩, -⟩ := h.outcome
  · exact ⟨[], (List.append_nil _).symm⟩
  · exact ⟨_, htrace⟩

theorem Effect.faults_extend (h : Effect s i t) :
    (∃ l, t.faultLog = s.faultLog ++ l) ∧ ∀ c, s.faults.has c = true → t.faults.has c = true := by
  obtain ⟨x, rfl⟩ | ⟨-, -, ⟨hlog, hfaults⟩ | ⟨c, -, hlog, hfaults⟩⟩ := h.outcome
  · exact ⟨⟨[], (List.append_nil _).symm⟩, fun _ => id⟩
  · rw [hlog, hfaults]
    exact ⟨⟨[], (List.append_nil _).symm⟩, fun _ => id⟩
  · refine ⟨⟨_, hlog⟩, fun c' hc' => ?_⟩
    rw [hfaults, FaultSet.has_set]
    exact .inl hc'

/-- Settles O4: a transaction adds to the trace and the fault log, an event to the line. -/
theorem stepOnlyExtendsHistory : Obligations.StepOnlyExtendsHistory := by
  intro s t h
  obtain ⟨-, he⟩ := step_effect h
  have hnil {α : Type} (l : List α) : ∃ l', l = l ++ l' := ⟨[], (List.append_nil l).symm⟩
  cases he with
  | completed _ hexec =>
    have hu := exec_effect hexec
    obtain ⟨hlog, hbits⟩ := hu.faults_extend
    refine ⟨?_, hlog, hu.trace_extends, hbits, (exec_keeps_params hexec :)⟩
    rw [State.advance_line, hu.line_eq]
    exact hnil _
  | pollReady | pollWaiting => exact ⟨hnil _, hnil _, ⟨_, rfl⟩, fun _ => id, rfl⟩
  | cellFault => exact ⟨hnil _, ⟨_, rfl⟩, hnil _, fun c hc => (FaultSet.has_set _ _ c).mpr (.inl hc), rfl⟩
  | emitted => exact ⟨⟨_, rfl⟩, hnil _, hnil _, fun _ => id, rfl⟩
  | refused | cellPassed | blocked | stalled => exact ⟨hnil _, hnil _, hnil _, fun _ => id, rfl⟩

end

end Sys2Proof.Machine
end

section
/-! PROOFS. The fields of the register bytes (spec/10_state.md R22, R26, R28): each byte is its fields set side by side. -/

namespace Sys2Proof.Machine

/-- A one-bit field. -/
theorem ofBool_getLsbD (v : Byte) (k : Nat) : BitVec.ofBool (v.getLsbD k) = v.extractLsb' k 1 := by
  apply BitVec.eq_of_getLsbD_eq
  intro j hj
  obtain rfl : j = 0 := by omega
  simp

/-- Neighbouring fields are one field. -/
theorem extractLsb'_join (v : Byte) {m : Nat} (lo n : Nat) :
    v.extractLsb' (lo + n) m ++ v.extractLsb' lo n = v.extractLsb' lo (m + n) :=
  BitVec.extractLsb'_append_extractLsb'_eq_extractLsb' rfl

/-- Settles O19: the fields join from bit 7 down to the whole byte. -/
theorem registerFieldsHaveTheirPlaces : Obligations.RegisterFieldsHaveTheirPlaces := by
  refine ⟨fun v => ?lcr, fun v => ?fmt, fun v => ?fcr, fun v => ?mcr, by decide⟩
  case lcr =>
    rw [lcrDlab, lcrBrk, lcrPar, lcrStb, lcrWls, ofBool_getLsbD, ofBool_getLsbD, ofBool_getLsbD,
      extractLsb'_join v 6 1, extractLsb'_join v 3 3, extractLsb'_join v 2 1, extractLsb'_join v 0 2]
    exact BitVec.extractLsb'_eq_self
  case fmt =>
    rw [lcrBrk, lcrPar, lcrStb, lcrWls, ofBool_getLsbD, ofBool_getLsbD,
      extractLsb'_join v 3 3, extractLsb'_join v 2 1, extractLsb'_join v 0 2]
    rfl
  case fcr =>
    rw [fcrRetained, fcrFifoe, fcrTxclr, ofBool_getLsbD, ofBool_getLsbD, ofBool_getLsbD, extractLsb'_join v 4 2,
      extractLsb'_join v 3 1, extractLsb'_join v 2 1, extractLsb'_join v 1 1, extractLsb'_join v 0 1]
    exact BitVec.extractLsb'_eq_self
  case mcr =>
    rw [mcrLoop, mcrOut2, mcrOut1, mcrRts, mcrDtr, ofBool_getLsbD, ofBool_getLsbD, ofBool_getLsbD, ofBool_getLsbD,
      ofBool_getLsbD, extractLsb'_join v 4 1, extractLsb'_join v 3 1, extractLsb'_join v 2 1, extractLsb'_join v 1 1,
      extractLsb'_join v 0 1]
    exact BitVec.extractLsb'_eq_self

end Sys2Proof.Machine
end

section
/-! PROOFS. One step of a host that is next (spec/10_state.md R21, spec/20_memory.md R60, spec/42_uart_sequences.md R140): what
it issues and where it stands afterwards. -/

namespace Sys2Proof.Machine

section
variable {s : State} {rest : List HostOp}

/-! ### A transaction and a poll -/

/-- The state after a transaction that led to `t`, past it unless it was refused (R189). -/
def State.pastTransaction (t : State) (rest : List HostOp) : State :=
  if t.refused = none then { t with pending := rest, hpos := t.hpos + 1 } else t

theorem pastTransaction_of_completed {t : State} (h : t.refused = none) :
    t.pastTransaction rest = { t with pending := rest, hpos := t.hpos + 1 } := if_pos h

theorem hostStep_transaction {w : Word} (hp : s.pending = .transaction w :: rest) :
    ∃ t, exec (decode w) s = .next t ∧ s.hostStep = .next (t.pastTransaction rest) := by
  obtain ⟨t, ht⟩ := exec_next (decode w) s
  refine ⟨t, ht, ?_⟩
  have htail : t.pending.tail = rest := by rw [exec_keeps_pending ht, hp, List.tail_cons]
  simp only [State.hostStep, hp, ht, mapNext, State.afterTransaction, State.advance, htail, Option.isNone_iff_eq_none,
    State.pastTransaction]

theorem hostStep_poll (hp : s.pending = .pollTxReady :: rest) :
    s.hostStep = .next (if s.txq = [] then s.polled.advance else s.polled) := by
  rw [State.hostStep, hp, ← afterPoll_polled]
  rfl

/-- With a byte waiting and the host's turn listed next, a poll is answered not ready and stays (R140). -/
theorem step_poll_waiting_turn {ts : List Agent} (hr : s.refused = none) (hq : s.txq ≠ [])
    (hp : s.pending = .pollTxReady :: rest) (ht : s.turns = .host :: ts) :
    step s = .next (s.setTurns ts s.turnDraws).polled := by
  rw [step_host_turn hr hq (by simp [hp]) ht, hostStep_poll (s := s.setTurns ts s.turnDraws) hp]
  exact congrArg Host.Outcome.next (if_neg hq)

/-- Settles O35: with the queue empty no turn is used, and else the host's listed turn is. -/
theorem stepRunsDecodedTransaction : Obligations.StepRunsDecodedTransaction := by
  intro s w rest hr hp
  have hne : s.pending ≠ [] := by simp [hp]
  constructor
  · intro hq
    rw [step_host_idle hr hq hne]
    exact hostStep_transaction hp
  · intro ts hq hturns
    rw [step_host_turn hr hq hne hturns]
    exact hostStep_transaction (s := s.setTurns ts s.turnDraws) hp

theorem tableWord_32 (w : Nat) : tableWord 32 w = BitVec.ofNat 32 w := by
  apply BitVec.eq_of_toNat_eq
  simp [tableWord]

/-- Settles O36: a placed word comes with the host's turn where there is a choice, and that turn is used up. -/
theorem stepRunsPlacedWord : Obligations.StepRunsPlacedWord := by
  intro s w hr
  rw [← tableWord_32]
  have hplaced := hostStep_transaction (s := { s with pending := (s.withFetchWord 32 w).pending }) rfl
  have hstep : step (s.withFetchWord 32 w) = State.hostStep { s with pending := (s.withFetchWord 32 w).pending } := by
    by_cases hq : s.txq = []
    · rw [step_host_idle (s := s.withFetchWord 32 w) hr hq (List.cons_ne_nil _ _)]
      simp [State.withFetchWord, State.placeWord, hq]
    · rw [step_host_turn (s := s.withFetchWord 32 w) (ts := s.turns) hr hq (List.cons_ne_nil _ _)
        (by simp [State.withFetchWord, State.placeWord, hq])]
      rfl
  rw [hstep]
  exact hplaced

/-- Settles O37: the turn listed first decides between the agents, and is used up either way. -/
theorem eitherAgentMayStepNext : Obligations.EitherAgentMayStepNext := by
  intro s ts w rest hr hq hp
  have hne : s.pending ≠ [] := by simp [hp]
  constructor
  · exact step_transmitter_turn (s := { s with turns := .transmitter :: ts }) hr hq hne rfl
  · rw [step_host_turn (s := { s with turns := .host :: ts }) hr hq hne rfl]
    exact hostStep_transaction (s := { s with turns := ts }) hp

/-- Settles O38: bit 5 of the byte read is `THRE`, and the host moves past the poll on it. -/
theorem pollAdvancesOnlyWhenEmpty : Obligations.PollAdvancesOnlyWhenEmpty := by
  intro s rest hr hp
  have hne : s.pending ≠ [] := by simp [hp]
  have hbit : (lsrWithThre (Config.draw8 s.draws) s.thre).getLsbD 5 = s.thre := getLsbD_lsrWithThre _ _ (by decide)
  constructor
  · intro hq
    refine ⟨_, hbit.trans (State.thre_eq_true_iff.mpr hq), ?_⟩
    rw [step_host_idle hr hq hne, hostStep_poll hp, if_pos hq, State.advance]
    simp [State.polled, hp, encode, inb, ioWord]
  · intro ts hq hturns
    exact ⟨_, hbit.trans (State.thre_eq_false_iff.mpr hq), step_poll_waiting_turn hr hq hp hturns⟩

/-! ### A data write to an empty queue (R61 c, R91, R208) -/

/-- With the queue empty and DLAB = 0, the host's next data write is accepted. -/
theorem step_dataWrite_idle {v : Byte} (hr : s.refused = none) (hq : s.txq = []) (hdlab : s.dlab = false)
    (hcap : 0 < s.cap) (hp : s.pending = .transaction (outb 0x3F8 v) :: rest) :
    step s = .next { s with
      txq := [v], trace := s.trace ++ [⟨outb 0x3F8 v, none⟩], pending := rest, hpos := s.hpos + 1 } := by
  have hroom : s.txq.length < s.cap := by rw [hq]; exact hcap
  obtain ⟨t, ht, hstep⟩ := hostStep_transaction hp
  rw [decode_outb] at ht
  have hexec := (exec_uartDataW_thr s v hdlab).symm.trans ht
  rw [thrWrite_accept hroom, hq] at hexec
  cases hexec
  rw [step_host_idle hr hq (by simp [hp]), hstep]
  exact congrArg Host.Outcome.next (pastTransaction_of_completed hr)

/-- Settles O43: the host is past the poll only with the queue empty, where an admitted capacity has room. -/
theorem writeAfterReadyPollIsAccepted : Obligations.WriteAfterReadyPollIsAccepted := by
  intro s t v rest hok hdlab hp hstep ht
  obtain ⟨hr, he⟩ := step_effect hstep
  cases he with
  | pollReady _ hq => exact ⟨_, step_dataWrite_idle hr hq hdlab (State.cap_pos hok) ht, rfl, rfl, rfl, hr, rfl⟩
  | completed hp' | refused hp' | cellFault hp' | cellPassed hp' | stalled hp' =>
    rw [hp] at hp'
    cases hp'
  | pollWaiting | emitted | blocked =>
    have hstays : s.pending = .transaction (outb 0x3F8 v) :: rest := ht
    rw [hp] at hstays
    cases hstays

theorem cap_of_fifo_off (h : s.fcr.fifoEn = false) : s.cap = 1 := by
  simp [State.cap, h]

/-- Settles O58: the queued byte is the data write's, and with a byte of the divisor unset the transmitter step on it has no
divisor to send with. -/
theorem transmitBeforeConfigureIsRefused : Obligations.TransmitBeforeConfigureIsRefused := by
  constructor
  · intro s hs
    have hlcr : s.lcr = 0x00 := congrArg State.lcr hs
    have hmcr : s.mcr = 0x00 := congrArg State.mcr hs
    have hcap : s.cap = 1 := cap_of_fifo_off (congrArg (fun s => s.fcr.fifoEn) hs)
    rw [hlcr, hmcr, hcap]
    exact ⟨congrArg State.refused hs, rfl, rfl, rfl, congrArg State.txq hs, Nat.le_refl 1, congrArg State.dlHi hs,
      congrArg State.dlLo hs⟩
  · intro s v rest hr hdlab hbrk hloop hq hcap hunset hp
    refine ⟨_, step_dataWrite_idle hr hq hdlab hcap hp, rfl, rfl, rfl, rfl, hr, rfl, ?_⟩
    exact txStep_blocked (List.cons_ne_nil v [])
      (txBlock_of_no_divisor hloop hbrk (.inl (State.dl_of_unset hunset)))

end

end Sys2Proof.Machine
end

section
/-! PROOFS. Sequences issued with no transmitter step between: unpolled data writes (spec/42_uart_sequences.md R144), the
reversed cursor order (spec/43_vga_cursor.md R162), and cells (spec/44_vga_framebuffer.md R172 to R175). -/

namespace Sys2Proof.Machine

/-! ### Unpolled data writes (R144) -/

/-- The record of a dropped byte (R91, R186). -/
def overrunRecord (b : Byte) : FaultRecord := ⟨.f1TxOverrun, .word (0x2003F800 ||| b.setWidth 32)⟩

section
variable {s : State} {v : Byte} {ws : List Word} (hdlab : s.dlab = false)
include hdlab

theorem execWords_outb_enqueued (hroom : s.txq.length < s.cap) : execWords (outb 0x3F8 v :: ws) s =
    execWords ws { s with txq := s.txq ++ [v], trace := s.trace ++ [⟨outb 0x3F8 v, none⟩] } := by
  have hexec := exec_uartDataW_thr s v hdlab
  rw [thrWrite_accept hroom] at hexec
  exact execWords_outb hexec

theorem execWords_outb_dropped (hfull : s.cap ≤ s.txq.length) : execWords (outb 0x3F8 v :: ws) s =
    execWords ws { s with
      faults := s.faults.set .f1TxOverrun, faultLog := s.faultLog ++ [overrunRecord v]
      trace := s.trace ++ [⟨outb 0x3F8 v, none⟩] } := by
  have hexec := exec_uartDataW_thr s v hdlab
  rw [thrWrite_drop hfull, encode_uartDataW] at hexec
  exact execWords_outb hexec

end

/-- From any queue, as many bytes enter as there is room for, and every byte after them is dropped with its record. -/
theorem execWords_dataWrites (s : State) (buf : List Byte) (hdlab : s.dlab = false) :
    ∃ t, execWords (buf.map (outb 0x3F8 ·)) s = .next t ∧ t.txq = s.txq ++ buf.take (s.cap - s.txq.length) ∧
      t.line = s.line ∧ t.refused = s.refused ∧
      t.faultLog = s.faultLog ++ (buf.drop (s.cap - s.txq.length)).map overrunRecord := by
  induction buf generalizing s with
  | nil => exact ⟨s, rfl, by simp⟩
  | cons b buf ih =>
    rw [List.map_cons]
    obtain hroom | hfull := Nat.lt_or_ge s.txq.length s.cap
    · rw [execWords_outb_enqueued hdlab hroom]
      obtain ⟨t, ht, hq, hline, hrefused, hlog⟩ :=
        ih { s with txq := s.txq ++ [b], trace := s.trace ++ [⟨outb 0x3F8 b, none⟩] } hdlab
      have hleft : s.cap - s.txq.length = s.cap - (s.txq ++ [b]).length + 1 := by
        rw [List.length_append, List.length_singleton]
        omega
      refine ⟨t, ht, ?_, hline, hrefused, ?_⟩
      · rw [hq, hleft, List.take_succ_cons, List.append_assoc]
        rfl
      · rw [hlog, hleft, List.drop_succ_cons]
        rfl
    · rw [execWords_outb_dropped hdlab hfull]
      obtain ⟨t, ht, hq, hline, hrefused, hlog⟩ := ih { s with
        faults := s.faults.set .f1TxOverrun, faultLog := s.faultLog ++ [overrunRecord b]
        trace := s.trace ++ [⟨outb 0x3F8 b, none⟩] } hdlab
      have hleft : s.cap - s.txq.length = 0 := Nat.sub_eq_zero_of_le hfull
      refine ⟨t, ht, hq.trans ?_, hline, hrefused, hlog.trans ?_⟩
      · show s.txq ++ buf.take (s.cap - s.txq.length) = _
        rw [hleft, List.take_zero, List.take_zero]
      · show (s.faultLog ++ [overrunRecord b]) ++ (buf.drop (s.cap - s.txq.length)).map overrunRecord = _
        rw [hleft, List.drop_zero, List.drop_zero, List.append_assoc]
        rfl

/-- Settles O48: from an empty queue there is room for `CAP` bytes. -/
theorem unpolledBurstDropsTheExcess : Obligations.UnpolledBurstDropsTheExcess := by
  intro s buf hdlab hq
  have hburst := execWords_dataWrites s buf hdlab
  rw [hq] at hburst
  exact hburst

/-! ### The reversed cursor order (R162) -/

/-- With the low byte set, the position is there or not as the high byte is. -/
theorem State.cursorPos_of_low_set {s : State} {l : Byte} (hl : s.cursorLo = some l) :
    s.cursorPos = s.cursorHi.map (pair · l) := by
  cases hh : s.cursorHi with
  | none => exact State.cursorPos_of_unset (.inl hh)
  | some h => exact State.cursorPos_of_set hh hl

/-- Settles O50: the first pair sets the low byte and leaves the high one, and the second leaves index 14. -/
theorem reversedCursorOrderSamePosition : Obligations.ReversedCursorOrderSamePosition := by
  intro s pos first second
  have hdata (v : Byte) : outb 0x3D5 v = 0x2003D500 ||| v.setWidth 32 := encode_crtcDataW v
  have hfirst : first = [outb 0x3D4 15, outb 0x3D5 (low pos)] := by
    rw [hdata]
    rfl
  have hsecond : second = [outb 0x3D4 14, outb 0x3D5 (high pos)] := by
    rw [hdata]
    rfl
  refine ⟨?words, ?transient, ?final⟩
  case words =>
    rw [hfirst, hsecond]
    rfl
  case transient =>
    rw [hfirst]
    exact ⟨_, execWords_writeCursorLow s (low pos) [], State.cursorPos_of_low_set rfl⟩
  case final =>
    rw [hfirst, hsecond, List.cons_append, List.cons_append, List.nil_append, execWords_writeCursorLow,
      execWords_writeCursorHigh]
    refine ⟨_, rfl, ?_, rfl, rfl, rfl⟩
    rw [State.cursorPos_of_set rfl rfl, pair_high_low]

/-! ### Cells (R172 to R175) -/

section
variable {s : State} {off : FbOffset} {v : Byte} {ws : List Word}

theorem execWords_fbw_inside (hin : off.toNat < s.params.fbSize) : execWords (fbw off v :: ws) s =
    execWords ws { s with fb := s.fb.write off.toNat v, trace := s.trace ++ [⟨fbw off v, none⟩] } := by
  apply execWords_cons
  rw [decode_fbw, exec_fbByteW, fbWrite_inside hin]
  rfl

theorem execWords_fbw_outside (hout : s.params.fbSize ≤ off.toNat) : execWords (fbw off v :: ws) s =
    execWords ws { s with
      faults := s.faults.set .f3FbOutOfRange
      faultLog := s.faultLog ++ [⟨.f3FbOutOfRange, .word (fbw off v)⟩]
      trace := s.trace ++ [⟨fbw off v, none⟩] } := by
  apply execWords_cons
  rw [decode_fbw, exec_fbByteW, fbWrite_outside hout]
  rfl

theorem execWords_fbr_stored (v : Byte) (hin : off.toNat < s.params.fbSize) (hread : s.fb.read off.toNat = some v) :
    execWords (fbr off :: ws) s = execWords ws { s with trace := s.trace ++ [⟨fbr off, some v⟩] } := by
  apply execWords_cons
  rw [decode_fbr, exec_fbByteR, fbRead_stored hin hread]
  rfl

theorem eq_add_one_of_even {off' : FbOffset} (heven : off.toNat % 2 = 0) (hnext : off'.toNat = off.toNat + 1) :
    off' = off + 1 :=
  BitVec.eq_of_toNat_eq (hnext.trans (toNat_add_one_of_even heven).symm)

end

/-- Settles O52: the framebuffer's size is even, so that the cell's second byte is inside as its first is; each read finds
the byte written to its own offset. -/
theorem cellRoundTrip : Obligations.CellRoundTrip := by
  intro s off off' c fg bg hok heven hin hnext
  obtain ⟨-, hsize, -⟩ := hok
  have hin' : off'.toNat < s.params.fbSize := by omega
  have hne : off.toNat ≠ off'.toNat := by omega
  have hchar : ((s.fb.write off.toNat c).write off'.toNat (packAttr fg bg)).read off.toNat = some c := by
    rw [Memory.read_write_other _ _ hne, Memory.read_write_same]
  have hattr : ((s.fb.write off.toNat c).write off'.toNat (packAttr fg bg)).read off'.toNat = some (packAttr fg bg) :=
    Memory.read_write_same _ _ _
  have hexec : execWords [fbw off c, fbw off' (packAttr fg bg), fbr off, fbr off'] s = .next { s with
      fb := (s.fb.write off.toNat c).write off'.toNat (packAttr fg bg)
      trace := s.trace ++ [⟨fbw off c, none⟩, ⟨fbw off' (packAttr fg bg), none⟩, ⟨fbr off, some c⟩,
        ⟨fbr off', some (packAttr fg bg)⟩] } := by
    rw [execWords_fbw_inside, execWords_fbw_inside, execWords_fbr_stored c, execWords_fbr_stored (packAttr fg bg)]
    · simp [execWords]
    · exact hin'
    · exact hattr
    · exact hin
    · exact hchar
    · exact hin'
    · exact hin
  refine ⟨_, packAttr fg bg, hexec, ?_, rfl, attrFg_packAttr fg bg, attrBg_packAttr fg bg, hchar, hattr, ?_⟩
  · rw [writeCell_even heven, eq_add_one_of_even heven hnext]
    rfl
  · intro x hx hx'
    exact (Memory.read_write_other _ _ hx').trans (Memory.read_write_other _ _ hx)

/-- Settles O53: the second offset is past the end as the first is, and the second F3 finds its bit already set. -/
theorem cellPastTheEndFaultsTwice : Obligations.CellPastTheEndFaultsTwice := by
  intro s off off' c fg bg heven hout hnext
  have hout' : s.params.fbSize ≤ (off + 1).toNat := by
    rw [toNat_add_one_of_even heven]
    exact Nat.le_succ_of_le hout
  refine ⟨_, _, writeCell_even heven c fg bg, ?_⟩
  rw [execWords_fbw_outside, execWords_fbw_outside]
  · simp [execWords, FaultSet.set]
  · exact hout'
  · exact hout

end Sys2Proof.Machine
end

section
/-! PROOFS. Progress (spec/41_uart_transmitter.md R124, spec/42_uart_sequences.md R140, spec/70_reset_and_hazards.md R227): with
the host done the fair transmitter drains the queue; unfairness may hold it off; under fairness its turn comes, and every run
stops. -/

namespace Sys2Proof.Machine

/-! ### The host done and the transmitter fair (R227) -/

/-- One step per waiting byte, by induction on the queue. -/
theorem run_drains {d : BitVec 16} (hd0 : d ≠ 0) (q : List Byte) (s : State) (hq : s.txq = q) (hfair : Fair s)
    (hr : s.refused = none) (hp : s.pending = []) (hloop : mcrLoop s.mcr = false) (hbrk : lcrBrk s.lcr = false)
    (hd : s.dl = some d) :
    run q.length s = .next { s with txq := [], line := s.line ++ q.map (⟨·, lcrFmt s.lcr, d⟩) } := by
  induction q generalizing s with
  | nil =>
    have hsame : s = { s with txq := [] } := by rw [← hq]
    rw [List.map_nil, List.append_nil]
    exact congrArg Host.Outcome.next hsame
  | cons v q ih =>
    have hstep : step s = .next { s with txq := q, line := s.line ++ [⟨v, lcrFmt s.lcr, d⟩] } := by
      rw [step_transmitter_fair hr (by simp [hq]) hp hfair, txStep_emit hq hloop hbrk hd hd0]
    rw [List.length_cons, run_succ_next hstep]
    refine (ih { s with txq := q, line := _ } rfl hfair hr hp hloop hbrk hd).trans ?_
    simp

/-- Settles O54: the fields named by their bits are those of the transmitter's step. -/
theorem fairQueueDrains : Obligations.FairQueueDrains := by
  intro s d hfair hr hp hloop hbrk hd hd0
  exact run_drains hd0 s.txq s rfl hfair hr hp hloop hbrk hd

/-! ### The transmitter held off (R124, R140) -/

/-- With the host done and its turn listed next, an unfair transmitter does not step. -/
theorem step_stall_turn {s : State} {ts : List Agent} (hr : s.refused = none) (hq : s.txq ≠ []) (hp : s.pending = [])
    (hunfair : s.params.txFair = false) (ht : s.turns = .host :: ts) :
    step s = .next (s.setTurns ts s.turnDraws) := by
  have henabled : s.txEnabled = true := txEnabled_iff.mpr ⟨hq, hr⟩
  simp [step, hr, State.nextMove, hp, henabled, hunfair, State.takeTurn, ht]

theorem run_stalls (n : Nat) (s : State) (hr : s.refused = none) (hq : s.txq ≠ []) (hunfair : s.params.txFair = false)
    (ht : s.turns = List.replicate n .host) (hp : s.pending = []) :
    ∃ t, run n s = .next t ∧ t.txq = s.txq ∧ t.line = s.line ∧ t.pending = [] := by
  induction n generalizing s with
  | zero => exact ⟨s, rfl, rfl, rfl, hp⟩
  | succ n ih =>
    rw [run_succ_next (step_stall_turn hr hq hp hunfair ht)]
    exact ih (s.setTurns _ _) hr hq hunfair rfl hp

/-- A poll answered not ready is polled again. -/
theorem run_polls (n : Nat) (s : State) (hr : s.refused = none) (hq : s.txq ≠ [])
    (ht : s.turns = List.replicate n .host) {rest : List HostOp} (hp : s.pending = .pollTxReady :: rest) :
    ∃ t, run n s = .next t ∧ t.txq = s.txq ∧ t.line = s.line ∧ t.pending = s.pending ∧ t.hpos = s.hpos ∧
      t.trace.length = s.trace.length + n := by
  induction n generalizing s with
  | zero => exact ⟨s, rfl, rfl, rfl, rfl, rfl, rfl⟩
  | succ n ih =>
    obtain ⟨t, hrun, htxq, hline, hpending, hhpos, htrace⟩ :=
      ih (s.setTurns (List.replicate n .host) s.turnDraws).polled hr hq rfl hp
    rw [run_succ_next (step_poll_waiting_turn hr hq hp ht)]
    refine ⟨t, hrun, htxq, hline, hpending, hhpos, ?_⟩
    rw [htrace, State.polled, List.length_append, List.length_singleton, Nat.add_assoc, Nat.add_comm 1]
    rfl

/-- Settles O57: each listed turn is the host's, spent on a poll or, with the host done, on nothing. -/
theorem unfairTransmitterMayStall : Obligations.UnfairTransmitterMayStall := by
  intro s n hr hq hunfair ht
  exact ⟨run_stalls n s hr hq hunfair ht, fun _ hp => run_polls n s hr hq ht hp⟩

/-! ### The transmitter's next turn under fairness (R124) -/

/-- How many turns the host is given before the transmitter's next one, under fairness (log 6). -/
def State.hostTurnsAhead (s : State) : Nat := (s.turns ++ freshTurns true s.turnDraws).idxOf .transmitter

section
variable {s t : State}

theorem transmitter_mem_freshTurns (n : Nat) : Agent.transmitter ∈ freshTurns true n :=
  List.mem_append_right _ (List.mem_singleton_self _)

theorem idxOf_transmitter_cons_host (ts : List Agent) :
    (Agent.host :: ts).idxOf .transmitter = ts.idxOf .transmitter + 1 := by
  rw [List.idxOf_cons]
  rfl

/-- A turn the host takes brings the transmitter's nearer. -/
theorem hostTurnsAhead_takeTurn (hfair : Fair s) (hturn : s.takeTurn.1 = .host) :
    s.takeTurn.2.hostTurnsAhead < s.hostTurnsAhead := by
  cases hturns : s.turns with
  | cons a rest =>
    have htake : s.takeTurn = (a, s.setTurns rest s.turnDraws) := by simp [State.takeTurn, hturns]
    rw [htake] at hturn ⊢
    obtain rfl : a = .host := hturn
    rw [State.hostTurnsAhead, State.hostTurnsAhead, hturns, List.cons_append, idxOf_transmitter_cons_host]
    exact Nat.lt_succ_self _
  | nil =>
    have hmem := transmitter_mem_freshTurns s.turnDraws
    obtain ⟨a, rest, hfresh⟩ := List.exists_cons_of_ne_nil (List.ne_nil_of_mem hmem)
    have htake : s.takeTurn = (a, s.setTurns rest (s.turnDraws + 1)) := by
      simp [State.takeTurn, hturns, show s.params.txFair = true from hfair, hfresh]
    rw [htake] at hturn ⊢
    obtain rfl : a = .host := hturn
    have hrest : Agent.transmitter ∈ rest := by simpa [hfresh] using hmem
    rw [State.hostTurnsAhead, State.hostTurnsAhead, hturns, List.nil_append, hfresh, idxOf_transmitter_cons_host,
      State.setTurns_turns, List.idxOf_append, if_pos hrest]
    exact Nat.lt_succ_self _

/-- The host's side of a step uses no turn. -/
theorem hostStep_keeps_schedule (h : s.hostStep = .next t) :
    t.turns = s.turns ∧ t.turnDraws = s.turnDraws ∧ t.params = s.params := by
  obtain ⟨w, rest, u, -, hu, rfl⟩ | ⟨rest, -, rfl⟩ | ⟨off, rest, -, rfl⟩ := hostStep_cases h
  · obtain ⟨hparams, -, -, hturns, hdraws, -⟩ := exec_keeps_host hu
    rw [State.afterTransaction]
    split <;> exact ⟨hturns, hdraws, hparams⟩
  · rw [lsrRead_complete, afterPoll_polled]
    split <;> exact ⟨rfl, rfl, rfl⟩
  · rw [State.cellCheckStep]
    split <;> exact ⟨rfl, rfl, rfl⟩

/-- While the fair transmitter is enabled and not next, the host takes a turn. -/
theorem fair_host_step (hfair : Fair s) (henabled : s.txEnabled = true) (hmove : s.nextMove.1 ≠ .transmitter) :
    ∃ t, step s = .next t ∧ Fair t ∧ t.hostTurnsAhead < s.hostTurnsAhead := by
  obtain ⟨-, hr⟩ := txEnabled_iff.mp henabled
  have hp : s.pending ≠ [] := by
    intro hp
    simp [State.nextMove, hp, henabled, show s.params.txFair = true from hfair] at hmove
  have hpe : s.pending.isEmpty = false := List.isEmpty_eq_false_iff.mpr hp
  cases hturn : s.takeTurn with
  | mk a u =>
    have hhost : a = .host := by
      cases a with
      | host => rfl
      | transmitter => simp [State.nextMove, hpe, henabled, hturn] at hmove
    subst hhost
    have hstep : step s = u.hostStep := by simp [step, hr, State.nextMove, hpe, henabled, hturn]
    obtain ⟨ts, n, hu⟩ := takeTurn_eq s
    replace hu : u = s.setTurns ts n := by rw [← hu, hturn]
    obtain ⟨t, ht⟩ := hostStep_next (s := u) (by rw [hu]; exact hp)
    obtain ⟨hturns, hdraws, hparams⟩ := hostStep_keeps_schedule ht
    have hahead := hostTurnsAhead_takeTurn hfair (by rw [hturn])
    refine ⟨t, hstep.trans ht, ?_, ?_⟩
    · rw [Fair, hparams, hu]
      exact hfair
    · rw [hturn] at hahead
      rw [State.hostTurnsAhead, hturns, hdraws]
      exact hahead

/-- Settles O55: by induction on the host's turns ahead, each of which the host takes while the transmitter stays enabled. -/
theorem fairTransmitterMoves : Obligations.FairTransmitterMoves := by
  intro s hfair henabled
  induction hahead : s.hostTurnsAhead using Nat.strongRecOn generalizing s with
  | ind a ih =>
    by_cases hmove : s.nextMove.1 = .transmitter
    · exact ⟨0, s, rfl, fun _ => hmove⟩
    obtain ⟨t, hstep, hfair', hless⟩ := fair_host_step hfair henabled hmove
    by_cases hstill : t.txEnabled = true
    · obtain ⟨k, u, hrun, hu⟩ := ih _ (hahead ▸ hless) t hfair' hstill rfl
      exact ⟨k + 1, u, (run_succ_next hstep).trans hrun, hu⟩
    · exact ⟨1, t, run_succ_next hstep, fun h => absurd h hstill⟩

/-! ### Every fair run stops (R140, R226) -/

/-- What is left to do: the host's operations, then the bytes waiting, then the host's turns ahead. -/
def State.remaining (s : State) : Nat × Nat × Nat := (s.pending.length, s.txq.length, s.hostTurnsAhead)

/-- Less is left to do in `t` than in `s`, by the first of the three that differs. -/
def LessLeft (t s : State) : Prop := Prod.Lex (· < ·) (Prod.Lex (· < ·) (· < ·)) t.remaining s.remaining

theorem lessLeft_wf : WellFounded LessLeft :=
  InvImage.wf State.remaining (Prod.lex Nat.lt_wfRel (Prod.lex Nat.lt_wfRel Nat.lt_wfRel)).wf

/-- A step sets the mark, completes an operation, sends a byte, or leaves both lists, which needs a byte waiting. -/
theorem StepEffect.progress (h : StepEffect s t) :
    t.refused ≠ none ∨ t.pending.length < s.pending.length ∨
      (t.pending = s.pending ∧ t.txq.length < s.txq.length) ∨ (t.pending = s.pending ∧ t.txq = s.txq ∧ s.txq ≠ []) := by
  have hshorter {op : HostOp} {rest : List HostOp} (hp : s.pending = op :: rest) :
      s.pending.tail.length < s.pending.length := by simp [hp]
  cases h with
  | @completed _ _ _ _ u hp hexec =>
    have hpending : u.pending = s.pending := (exec_keeps_pending hexec :)
    refine .inr (.inl ?_)
    rw [State.advance_pending, hpending]
    exact hshorter hp
  | refused | blocked => exact .inl (Option.some_ne_none _)
  | pollReady hp | cellFault hp | cellPassed hp => exact .inr (.inl (hshorter hp))
  | emitted hq => exact .inr (.inr (.inl ⟨rfl, by simp [hq]⟩))
  | pollWaiting _ hq | stalled _ hq => exact .inr (.inr (.inr ⟨rfl, rfl, hq⟩))

/-- A transmitter's step sends a byte or sets the mark. -/
theorem txStep_progress (hq : s.txq ≠ []) : s.txStep.refused ≠ none ∨ s.txStep.txq.length < s.txq.length := by
  cases hx : s.txBlock with
  | some x =>
    rw [txStep_blocked hq hx]
    exact .inl (Option.some_ne_none _)
  | none =>
    obtain ⟨hloop, hbrk, d, hd, hd0⟩ := unblocked_of_txBlock hx
    obtain ⟨v, rest, hvs⟩ := List.exists_cons_of_ne_nil hq
    rw [txStep_emit hvs hloop hbrk hd hd0, hvs]
    exact .inr (Nat.lt_succ_self _)

/-- A fair step sets the mark or leaves less to do. -/
theorem fair_step_remaining (hfair : Fair s) (h : step s = .next t) : t.refused ≠ none ∨ LessLeft t s := by
  obtain ⟨hr, he⟩ := step_effect h
  simp only [LessLeft, State.remaining, Prod.lex_def]
  obtain hmark | hpending | ⟨hpending, htxq⟩ | ⟨hpending, htxq, hq⟩ := he.progress
  · exact .inl hmark
  · exact .inr (.inl hpending)
  · exact .inr (.inr ⟨congrArg _ hpending, .inl htxq⟩)
  by_cases hmove : s.nextMove.1 = .transmitter
  · obtain ⟨ts, n, hstate⟩ := nextMove_state s
    rw [step_eq s hr, hmove, hstate] at h
    cases h
    obtain hmark | hless := txStep_progress (s := s.setTurns ts n) hq
    · exact .inl hmark
    · exact absurd (congrArg List.length htxq) (Nat.ne_of_lt hless)
  · obtain ⟨u, hu, -, hless⟩ := fair_host_step hfair (txEnabled_iff.mpr ⟨hq, hr⟩) hmove
    rw [h] at hu
    cases hu
    exact .inr (.inr ⟨congrArg _ hpending, .inr ⟨congrArg _ htxq, hless⟩⟩)

theorem StepEffect.params_eq (h : StepEffect s t) : t.params = s.params := by
  cases h with
  | completed _ hexec => exact (exec_keeps_params hexec :)
  | _ => rfl

/-- A run whose first step does not go on stops as that step does. -/
theorem run_succ_of_stop {k : Nat} (h : ∀ t, step s ≠ .next t) : run (k + 1) s = step s := by
  cases hstep : step s with
  | next t => exact absurd hstep (h t)
  | fault | refused => simp [run, Host.Core.run, Sys2Proof.core, hstep]

theorem run_one_of_fault {r : Fault} (h : step s = .fault r) : run 1 s = .fault r :=
  (run_succ_of_stop (by simp [h])).trans h

theorem run_one_of_refused {x : RefusalCode} (h : s.refused = some x) : run 1 s = .refused (.halted x) :=
  (run_succ_of_stop (by simp [step_of_refused h])).trans (step_of_refused h)

/-- Settles O56: by induction on what is left to do. -/
theorem fairRunsStop : Obligations.FairRunsStop := by
  intro s hfair
  induction s using lessLeft_wf.induction with
  | h s ih =>
    cases hr : s.refused with
    | some x => exact ⟨1, .inr ⟨x, run_one_of_refused hr⟩⟩
    | none =>
      obtain ⟨t, hstep⟩ | ⟨hend, -⟩ := step_next_or_ended hr
      · obtain ⟨-, he⟩ := step_effect hstep
        have hfair' : Fair t := (congrArg Config.Params.txFair he.params_eq).trans hfair
        obtain hmark | hless := fair_step_remaining hfair hstep
        · obtain ⟨x, hx⟩ := Option.ne_none_iff_exists'.mp hmark
          exact ⟨2, .inr ⟨x, (run_succ_next hstep).trans (run_one_of_refused hx)⟩⟩
        · obtain ⟨k, hk⟩ := ih t hless hfair'
          refine ⟨k + 1, ?_⟩
          rw [run_succ_next hstep]
          exact hk
      · exact ⟨1, .inl (run_one_of_fault hend)⟩

end

end Sys2Proof.Machine
end

section
/-! PROOFS. `CONFIGURE d` under every interleaving (spec/42_uart_sequences.md R136): what its first `n` transactions have set up
is kept by the transmitter, and the transaction after them sets up the next. -/

namespace Sys2Proof.Machine

/-- What the first `n` transactions of `CONFIGURE d` have set up, as far as the later ones and the end need it. -/
def ConfigureStage (d : BitVec 16) (n : Nat) (t : State) : Prop :=
  match n with
  | 0 => True
  | 1 => t.lcr = 0x80 ∧ t.dlPtr = .high
  | 2 => t.lcr = 0x80 ∧ t.dlPtr = .low ∧ t.dlHi = some (high d)
  | 3 => t.dlHi = some (high d) ∧ t.dlLo = some (low d)
  | 4 => t.dlHi = some (high d) ∧ t.dlLo = some (low d) ∧ t.lcr = 0x03 ∧ t.dlPtr = .high
  | 5 => t.dlHi = some (high d) ∧ t.dlLo = some (low d) ∧ t.lcr = 0x03 ∧ t.dlPtr = .high ∧
      t.fcr = ⟨true, false, 3#2⟩ ∧ t.txq = []
  | _ => t.dlHi = some (high d) ∧ t.dlLo = some (low d) ∧ t.lcr = 0x03 ∧ t.dlPtr = .high ∧
      t.fcr = ⟨true, false, 3#2⟩ ∧ t.txq = [] ∧ t.mcr = 0x03

section
variable {d : BitVec 16} {n : Nat} {s t u : State}

theorem ConfigureStage.setTurns (h : ConfigureStage d n t) (ts : List Agent) (m : Nat) :
    ConfigureStage d n (t.setTurns ts m) := h

/-- A byte sent leaves the stage: up to the fourth transaction no stage speaks of the queue, and from the fifth on none
waits. -/
theorem ConfigureStage.emitted (h : ConfigureStage d n t) (hq : t.txq ≠ []) (ts : List Agent) (m : Nat) (q : List Byte)
    (l : List TxEvent) : ConfigureStage d n { t.setTurns ts m with txq := q, line := l } := by
  match n, h with
  | 0, h | 1, h | 2, h | 3, h | 4, h => exact h
  | 5, ⟨_, _, _, _, _, hempty⟩ => exact absurd hempty hq
  | n + 6, ⟨_, _, _, _, _, hempty, _⟩ => exact absurd hempty hq

/-- The transaction after the first `n` sets up the next stage, and neither faults nor refuses. -/
theorem ConfigureStage.next (h : ConfigureStage d n t) {w : Word} (hw : (configureWords d)[n]? = some w)
    (hexec : exec (decode w) t = .next u) :
    ConfigureStage d (n + 1) u ∧ u.faults = t.faults ∧ u.faultLog = t.faultLog ∧ u.refused = t.refused := by
  match n, h with
  | 0, _ =>
    cases hw
    rw [decode_outb] at hexec
    cases hexec
    exact ⟨⟨rfl, rfl⟩, rfl, rfl, rfl⟩
  | 1, ⟨hlcr, hptr⟩ =>
    cases hw
    have hdlab : t.dlab = true := by rw [State.dlab, hlcr]; rfl
    rw [decode_outb] at hexec
    have hdiv := (exec_uartDataW_divisor t (high d) hdlab).symm.trans hexec
    rw [divisorWrite_high hptr] at hdiv
    cases hdiv
    exact ⟨⟨hlcr, rfl, rfl⟩, rfl, rfl, rfl⟩
  | 2, ⟨hlcr, hptr, hhi⟩ =>
    cases hw
    have hdlab : t.dlab = true := by rw [State.dlab, hlcr]; rfl
    rw [decode_outb] at hexec
    have hdiv := (exec_uartDataW_divisor t (low d) hdlab).symm.trans hexec
    rw [divisorWrite_low hptr] at hdiv
    cases hdiv
    exact ⟨⟨hhi, rfl⟩, rfl, rfl, rfl⟩
  | 3, ⟨hhi, hlo⟩ =>
    cases hw
    rw [decode_outb] at hexec
    cases hexec
    exact ⟨⟨hhi, hlo, rfl, rfl⟩, rfl, rfl, rfl⟩
  | 4, ⟨hhi, hlo, hlcr, hptr⟩ =>
    cases hw
    rw [decode_outb] at hexec
    have hfcr := (exec_uartFcrW t 0xC7).symm.trans hexec
    rw [fcrWrite_clear (.inr rfl)] at hfcr
    cases hfcr
    exact ⟨⟨hhi, hlo, hlcr, hptr, rfl, rfl⟩, rfl, rfl, rfl⟩
  | 5, ⟨hhi, hlo, hlcr, hptr, hfcr, hempty⟩ =>
    cases hw
    rw [decode_outb] at hexec
    cases hexec
    exact ⟨⟨hhi, hlo, hlcr, hptr, hfcr, hempty, rfl⟩, rfl, rfl, rfl⟩
  | n + 6, _ => cases hw

/-- A run of `CONFIGURE d` from `s` that has come to `t`, with `n` transactions completed. A transmitter step may have been
refused, with its byte still waiting. -/
structure ConfigureRun (s : State) (d : BitVec 16) (n : Nat) (t : State) : Prop where
  bound : n ≤ 6
  pending : t.pending = (configure d).drop n
  position : t.hpos = s.hpos + n
  faults : t.faults = s.faults
  faultLog : t.faultLog = s.faultLog
  mark : t.refused = none ∨ t.txq ≠ []
  stage : ConfigureStage d n t

theorem configure_drop_eq_cons {op : HostOp} {rest : List HostOp} (h : (configure d).drop n = op :: rest) :
    ∃ w, op = .transaction w ∧ (configureWords d)[n]? = some w ∧ rest = (configure d).drop (n + 1) := by
  have hhead : ((configureWords d)[n]?).map HostOp.transaction = some op := by
    rw [← List.getElem?_map, ← List.head?_drop]
    exact congrArg List.head? h
  obtain ⟨w, hw, hop⟩ := Option.map_eq_some_iff.mp hhead
  refine ⟨w, hop.symm, hw, ?_⟩
  rw [← List.tail_drop, h, List.tail_cons]

/-- A step completes the next transaction, or it is the transmitter's. -/
theorem ConfigureRun.step (h : ConfigureRun s d n t) (hstep : Machine.step t = .next u) :
    ∃ n, ConfigureRun s d n u := by
  obtain ⟨hr, he⟩ := step_effect hstep
  obtain ⟨hbound, hpending, hposition, hfaults, hlog, -, hstage⟩ := h
  cases he with
  | completed hp hexec hrefused =>
    rw [hpending] at hp
    obtain ⟨w, hop, hw, hrest⟩ := configure_drop_eq_cons hp
    cases hop
    obtain ⟨hnext, hf, hl, -⟩ := (hstage.setTurns _ _).next hw hexec
    obtain ⟨-, hkept, hhpos, -⟩ := exec_keeps_host hexec
    obtain ⟨hlt, -⟩ := List.getElem?_eq_some_iff.mp hw
    refine ⟨n + 1, hlt, ?_, ?_, hf.trans hfaults, hl.trans hlog, .inl hrefused, hnext⟩
    · rw [State.advance_pending, hkept, State.setTurns_pending, hpending, hp, List.tail_cons, hrest]
    · rw [State.advance_hpos, hhpos, State.setTurns_hpos, hposition]
      rfl
  | refused hp hexec =>
    rw [hpending] at hp
    obtain ⟨w, hop, hw, -⟩ := configure_drop_eq_cons hp
    cases hop
    obtain ⟨-, -, -, hrefused⟩ := (hstage.setTurns _ _).next hw hexec
    rw [State.refuse_refused, State.setTurns_refused, hr] at hrefused
    cases hrefused
  | pollReady hp | pollWaiting hp | cellFault hp | cellPassed hp =>
    rw [hpending] at hp
    obtain ⟨w, hop, -⟩ := configure_drop_eq_cons hp
    cases hop
  | emitted hq =>
    have hwaiting : t.txq ≠ [] := by rw [hq]; exact List.cons_ne_nil _ _
    exact ⟨n, hbound, hpending, hposition, hfaults, hlog, .inl hr, hstage.emitted hwaiting _ _ _ _⟩
  | blocked hq => exact ⟨n, hbound, hpending, hposition, hfaults, hlog, .inr hq, hstage⟩
  | stalled => exact ⟨n, hbound, hpending, hposition, hfaults, hlog, .inl hr, hstage⟩

/-- Settles O45: with nothing pending all six transactions are completed, and the queue that the fifth cleared is empty. -/
theorem configureUnderEveryInterleaving : Obligations.ConfigureUnderEveryInterleaving := by
  intro s t d k hr hp hrun hdone
  have hstart : ConfigureRun s d 0 s := ⟨Nat.zero_le 6, hp, rfl, rfl, rfl, .inl hr, trivial⟩
  obtain ⟨n, hbound, hpending, hposition, hfaults, hlog, hmark, hstage⟩ :=
    run_invariant (P := fun t => ∃ n, ConfigureRun s d n t) (fun _ _ ⟨_, h⟩ hstep => h.step hstep) ⟨0, hstart⟩ hrun
  have hall : 6 ≤ n := by
    rw [hpending, List.drop_eq_nil_iff] at hdone
    exact hdone
  obtain rfl : n = 6 := Nat.le_antisymm hbound hall
  obtain ⟨hhi, hlo, hlcr, hptr, hfcr, hempty, hmcr⟩ := hstage
  have hdl : t.dl = some d := by rw [State.dl_of_set hhi hlo, pair_high_low]
  have hrefused : t.refused = none := hmark.resolve_right (not_not_intro hempty)
  rw [Configured, hfcr]
  exact ⟨⟨hlcr, hdl, rfl, rfl, hmcr⟩, hptr, rfl, hempty, hfaults, hlog, hrefused, hposition⟩

end

end Sys2Proof.Machine
end

section
/-! PROOFS. `WRITE buf` from a configured UART under every interleaving (spec/42_uart_sequences.md R142): at every point of a
run the buffer is what is sent, the byte waiting if there is one, and what the host has still to write. -/

namespace Sys2Proof.Machine

/-! ### What a run of `WRITE` leaves (R142, R223) -/

/-- Of the observation only the trace, the line and `THRE` differ, and the fault log and the parameters are the same. -/
structure KeepsAllButLine (s t : State) : Prop where
  observe : t.observe = { s.observe with trace := t.trace, line := t.line, thre := t.thre }
  faultLog : t.faultLog = s.faultLog
  params : t.params = s.params

section
variable {s t u : State} {d : BitVec 16}

theorem KeepsAllButLine.refl (s : State) : KeepsAllButLine s s := ⟨rfl, rfl, rfl⟩

theorem KeepsAllButLine.trans (h : KeepsAllButLine s t) (h' : KeepsAllButLine t u) : KeepsAllButLine s u :=
  ⟨by rw [h'.observe, h.observe], h'.faultLog.trans h.faultLog, h'.params.trans h.params⟩

theorem KeepsAllButLine.faults (h : KeepsAllButLine s t) : t.faults = s.faults := congrArg Observation.faults h.observe

theorem KeepsAllButLine.refused (h : KeepsAllButLine s t) : t.refused = s.refused :=
  congrArg Observation.refused h.observe

theorem KeepsAllButLine.configured (h : KeepsAllButLine s t) (hs : Configured d s) : Configured d t := by
  have hlcr : t.lcr = s.lcr := congrArg Observation.lcr h.observe
  have hhi : t.dlHi = s.dlHi := congrArg Observation.dlHi h.observe
  have hlo : t.dlLo = s.dlLo := congrArg Observation.dlLo h.observe
  have hfcr : t.fcr = s.fcr := congrArg Observation.fcr h.observe
  have hmcr : t.mcr = s.mcr := congrArg Observation.mcr h.observe
  have hdl : t.dl = s.dl := by rw [State.dl, State.dl, hhi, hlo]
  rw [Configured, hlcr, hdl, hfcr, hmcr]
  exact hs

/-! ### A configured UART (R16) -/

theorem Configured.dlab (h : Configured d s) : s.dlab = false := by
  obtain ⟨hlcr, -⟩ := h
  rw [State.dlab, hlcr]
  rfl

theorem Configured.unblocked (h : Configured d s) (hd0 : d ≠ 0) : s.txBlock = none := by
  obtain ⟨hlcr, hdl, -, -, hmcr⟩ := h
  have hloop : mcrLoop s.mcr = false := by rw [hmcr]; rfl
  have hbrk : lcrBrk s.lcr = false := by rw [hlcr]; rfl
  simp [State.txBlock, hloop, hbrk, hdl, show d ≠ 0#16 from hd0]

theorem Configured.setTurns (h : Configured d s) (ts : List Agent) (n : Nat) : Configured d (s.setTurns ts n) := h

/-- A data write to the empty queue of a configured UART is accepted. -/
theorem exec_dataWrite_configured {b : Byte} (hexec : exec (decode (outb 0x3F8 b)) s = .next u) (hconf : Configured d s)
    (hok : s.params.ok) (hq : s.txq = []) :
    u = { s with txq := [b], trace := s.trace ++ [⟨outb 0x3F8 b, none⟩] } := by
  rw [decode_outb] at hexec
  have hwrite := (exec_uartDataW_thr s b hconf.dlab).symm.trans hexec
  have hroom : s.txq.length < s.cap := by rw [hq]; exact State.cap_pos hok
  rw [thrWrite_accept hroom, hq] at hwrite
  cases hwrite
  rfl

/-! ### The stages of `WRITE buf` (R141) -/

/-- The events of bytes sent as configured (R121). -/
def configuredEvents (d : BitVec 16) (bytes : List Byte) : List TxEvent := bytes.map (⟨·, 0x03, d⟩)

/-- A run of `WRITE buf` from `s` that has come to `t`, about to poll for the bytes of `rest`: at most one byte waits, and the
bytes of `sent` are on the line. -/
structure WritePolling (s : State) (d : BitVec 16) (buf sent rest : List Byte) (t : State) : Prop where
  frame : KeepsAllButLine s t
  bytes : buf = sent ++ t.txq ++ rest
  single : t.txq.length ≤ 1
  pending : t.pending = writeBytes rest
  line : t.line = s.line ++ configuredEvents d sent
  position : t.hpos + 2 * rest.length = s.hpos + 2 * buf.length

/-- A run of `WRITE buf` from `s` that has come to `t`, past the poll and about to write `b` to the empty queue. -/
structure WriteWriting (s : State) (d : BitVec 16) (buf sent : List Byte) (b : Byte) (rest : List Byte) (t : State) :
    Prop where
  frame : KeepsAllButLine s t
  bytes : buf = sent ++ b :: rest
  empty : t.txq = []
  pending : t.pending = .transaction (outb 0x3F8 b) :: writeBytes rest
  line : t.line = s.line ++ configuredEvents d sent
  position : t.hpos + 2 * rest.length + 1 = s.hpos + 2 * buf.length

/-- A run of `WRITE buf` from `s` that has come to `t`. -/
inductive WriteRun (s : State) (d : BitVec 16) (buf : List Byte) (t : State) : Prop where
  | polling {sent rest : List Byte} (h : WritePolling s d buf sent rest t)
  | writing {sent rest : List Byte} {b : Byte} (h : WriteWriting s d buf sent b rest t)

end

section
variable {s : State} {d : BitVec 16} {buf sent rest : List Byte} {b : Byte} {t u : State}

theorem WriteRun.start (hconf : ConfiguredFor d s) (hp : s.pending = writeBytes buf) : WriteRun s d buf s := by
  obtain ⟨-, -, hq⟩ := hconf
  refine .polling (sent := []) (rest := buf) ⟨.refl s, ?_, ?_, hp, (List.append_nil _).symm, rfl⟩
  · rw [hq]
    rfl
  · rw [hq]
    exact Nat.zero_le 1

theorem WriteRun.frame (h : WriteRun s d buf t) : KeepsAllButLine s t := by
  obtain h | h := h
  · exact h.frame
  · exact h.frame

/-- The bytes on the line are the first ones of the buffer. -/
theorem WriteRun.exists_sent (h : WriteRun s d buf t) :
    ∃ sent unsent, buf = sent ++ unsent ∧ t.line = s.line ++ configuredEvents d sent := by
  obtain h | h := h
  · exact ⟨_, _, h.bytes.trans (List.append_assoc _ _ _), h.line⟩
  · exact ⟨_, _, h.bytes, h.line⟩

/-- With nothing pending, the bytes on the line and the one waiting are the buffer. -/
theorem WriteRun.polling_of_done (h : WriteRun s d buf t) (hdone : t.pending = []) :
    ∃ sent, WritePolling s d buf sent [] t := by
  obtain @⟨sent, rest, h⟩ | h := h
  · have hpending := h.pending.symm.trans hdone
    cases rest with
    | nil => exact ⟨sent, h⟩
    | cons => cases hpending
  · have hpending := h.pending.symm.trans hdone
    cases hpending

variable (hok : s.params.ok) (hconf : Configured d s) (hd0 : d ≠ 0)

include hconf hd0 in
/-- While the host polls, the byte waiting is sent, or the queue is found empty and the host goes on to write. -/
theorem WritePolling.step (h : WritePolling s d buf sent rest t) (he : StepEffect t u) :
    WriteRun s d buf u ∧ (u.pending = [] → t.pending = []) := by
  obtain ⟨hframe, hbytes, hsingle, hpending, hline, hposition⟩ := h
  have hconf' := hframe.configured hconf
  cases he with
  | pollReady hp hq =>
    cases rest with
    | nil =>
      rw [hpending] at hp
      cases hp
    | cons b rest =>
      have htail : t.pending.tail = .transaction (outb 0x3F8 b) :: writeBytes rest := by rw [hpending]; rfl
      rw [hq, List.append_nil] at hbytes
      rw [List.length_cons] at hposition
      refine ⟨.writing ⟨hframe.trans ⟨rfl, rfl, rfl⟩, hbytes, hq, htail, hline, ?_⟩, fun hdone => ?_⟩
      · show t.hpos + 1 + 2 * rest.length + 1 = _
        omega
      · have := htail.symm.trans hdone
        cases this
  | pollWaiting | stalled =>
    exact ⟨.polling ⟨hframe.trans ⟨rfl, rfl, rfl⟩, hbytes, hsingle, hpending, hline, hposition⟩, id⟩
  | @emitted _ _ v q d' hq hd =>
    obtain rfl : q = [] := by
      rw [hq] at hsingle
      exact List.eq_nil_of_length_eq_zero (Nat.le_zero.mp (Nat.le_of_succ_le_succ hsingle))
    obtain ⟨hlcr, hdl, -⟩ := hconf'
    obtain rfl : d = d' := Option.some.inj (hdl.symm.trans hd)
    refine ⟨.polling (sent := sent ++ [v]) ⟨hframe.trans ⟨rfl, rfl, rfl⟩, ?_, Nat.zero_le 1, hpending, ?_, hposition⟩, id⟩
    · rw [hbytes, hq]
      simp
    · show t.line ++ [⟨v, lcrFmt t.lcr, d⟩] = _
      rw [hline, hlcr, configuredEvents, configuredEvents, List.map_append, List.append_assoc]
      rfl
  | blocked hq hx =>
    rw [hconf'.unblocked hd0] at hx
    cases hx
  | completed hp | refused hp | cellFault hp | cellPassed hp =>
    rw [hpending] at hp
    cases rest <;> cases hp

include hok hconf in
/-- Past the poll the queue is empty, so that the transmitter has no step and the byte is accepted. -/
theorem WriteWriting.step (h : WriteWriting s d buf sent b rest t) (hr : t.refused = none) (he : StepEffect t u) :
    WriteRun s d buf u ∧ u.txq ≠ [] := by
  obtain ⟨hframe, hbytes, hempty, hpending, hline, hposition⟩ := h
  have hconf' := hframe.configured hconf
  have hok' : t.params.ok := by rw [hframe.params]; exact hok
  cases he with
  | completed hp hexec =>
    rw [hpending] at hp
    cases hp
    rw [exec_dataWrite_configured hexec (hconf'.setTurns _ _) hok' hempty]
    refine ⟨.polling (sent := sent) (rest := rest)
      ⟨hframe.trans ⟨rfl, rfl, rfl⟩, ?_, Nat.le_refl 1, ?_, hline, ?_⟩, List.cons_ne_nil b []⟩
    · rw [hbytes]
      simp
    · show t.pending.tail = _
      rw [hpending]
      rfl
    · show t.hpos + 1 + 2 * rest.length = _
      omega
  | refused hp hexec =>
    rw [hpending] at hp
    cases hp
    have hmark : some _ = t.refused :=
      congrArg State.refused (exec_dataWrite_configured hexec (hconf'.setTurns _ _) hok' hempty)
    rw [hr] at hmark
    cases hmark
  | emitted hq =>
    rw [hempty] at hq
    cases hq
  | blocked hq | stalled _ hq => exact absurd hempty hq
  | pollReady hp | pollWaiting hp | cellFault hp | cellPassed hp =>
    rw [hpending] at hp
    cases hp

end

/-! ### The obligations -/

section
variable {s t u : State} {d : BitVec 16} {buf : List Byte}

/-- A run of `WRITE` stays one, and a step that leaves the host with nothing pending leaves its last byte waiting. -/
theorem WriteRun.step (hok : s.params.ok) (hconf : ConfiguredFor d s) (h : WriteRun s d buf t)
    (hstep : Machine.step t = .next u) : WriteRun s d buf u ∧ (t.pending ≠ [] → u.pending = [] → u.txq ≠ []) := by
  obtain ⟨hconf, hd0, -⟩ := hconf
  obtain ⟨hr', he⟩ := step_effect hstep
  obtain h | h := h
  · obtain ⟨hrun, hpending⟩ := h.step hconf hd0 he
    exact ⟨hrun, fun hmore hdone => absurd (hpending hdone) hmore⟩
  · obtain ⟨hrun, hwaiting⟩ := h.step hok hconf hr' he
    exact ⟨hrun, fun _ _ => hwaiting⟩

theorem WriteRun.of_run {k : Nat} (hok : s.params.ok) (hconf : ConfiguredFor d s) (hp : s.pending = writeBytes buf)
    (hrun : run k s = .next t) : WriteRun s d buf t :=
  run_invariant (fun _ _ h hstep => (h.step hok hconf hstep).1) (.start hconf hp) hrun

/-- Settles O46: the bytes sent are the buffer's first ones, and the rest is the frame. -/
theorem writeNeverDropsAByte : Obligations.WriteNeverDropsAByte := by
  intro s t d buf k hok hr hconf hp hrun
  have h := WriteRun.of_run hok hconf hp hrun
  obtain ⟨sent, unsent, hbytes, hline⟩ := h.exists_sent
  refine ⟨h.frame.faults, h.frame.faultLog, h.frame.refused.trans hr, sent.length, ?_, ?_⟩
  · rw [hbytes, List.length_append]
    exact Nat.le_add_right _ _
  · rw [hline, hbytes, List.take_left]
    rfl

/-- A run that does not go on came to a state whose step did not. -/
theorem last_step_of_run {k : Nat} {o : Answer} (ho : ∀ t, o ≠ .next t) (h : run k s = o) :
    ∃ j t, run j s = .next t ∧ step t = o := by
  induction k generalizing s with
  | zero => exact absurd h.symm (ho s)
  | succ k ih =>
    by_cases hgoes : ∃ u, step s = .next u
    · obtain ⟨u, hstep⟩ := hgoes
      rw [run_succ_next hstep] at h
      obtain ⟨j, t, hrun, ht⟩ := ih h
      exact ⟨j + 1, t, (run_succ_next hstep).trans hrun, ht⟩
    · exact ⟨0, s, rfl, (run_succ_of_stop (not_exists.mp hgoes)).symm.trans h⟩

/-- A fair run from an unrefused state drains, unless on its way it is refused. -/
theorem fair_run_drains (hfair : Fair s) (hunrefused : ∀ j t, run j s = .next t → t.refused = none) :
    ∃ j t, run j s = .next t ∧ t.pending = [] ∧ t.txq = [] := by
  obtain ⟨k, hend | ⟨x, hend⟩⟩ := fairRunsStop s hfair
  · obtain ⟨j, t, hrun, ht⟩ := last_step_of_run (by simp) hend
    exact ⟨j, t, hrun, (runEndsExactlyWhenDrained t (hunrefused j t hrun)).mp ht⟩
  · obtain ⟨j, t, hrun, ht⟩ := last_step_of_run (by simp) hend
    obtain ⟨u, hu⟩ | ⟨hu, -⟩ := step_next_or_ended (hunrefused j t hrun)
    · cases hu.symm.trans ht
    · cases hu.symm.trans ht

/-- Settles O47: a fair run stops, this one unrefused, and drained with nothing pending it has sent the whole buffer. -/
theorem fairWriteDeliversTheBuffer : Obligations.FairWriteDeliversTheBuffer := by
  intro s d buf hok hr hfair hconf hp
  have hinv {j : Nat} {t : State} (hrun : run j s = .next t) := WriteRun.of_run hok hconf hp hrun
  obtain ⟨k, t, hrun, hdone, hq⟩ := fair_run_drains hfair fun j t hrun => (hinv hrun).frame.refused.trans hr
  obtain ⟨sent, hframe, hbytes, -, -, hline, hposition⟩ := (hinv hrun).polling_of_done hdone
  obtain ⟨hconf, hd0, -⟩ := hconf
  obtain rfl : buf = sent := by simpa [hq] using hbytes
  exact ⟨k, t, hrun, ⟨hdone, hq⟩, ⟨hframe.configured hconf, hd0, hq⟩, hframe.refused.trans hr, hframe.faults,
    hframe.faultLog, hline, hposition⟩

/-- Settles O59: the step that leaves nothing pending leaves a byte waiting, and with the bytes sent it is the buffer. -/
theorem writeEndsWithItsLastByteQueued : Obligations.WriteEndsWithItsLastByteQueued := by
  intro s u t d buf b k hok hr hconf hp hrun hlast
  obtain ⟨hmore, hstep, hdone⟩ := hlast
  obtain ⟨hnext, hwaiting⟩ := (WriteRun.of_run hok hconf hp hrun).step hok hconf hstep
  obtain ⟨sent, hframe, hbytes, hsingle, -, hline, -⟩ := hnext.polling_of_done hdone
  have hq := hwaiting hmore hdone
  obtain ⟨c, hc⟩ : ∃ c, t.txq = [c] :=
    List.length_eq_one_iff.mp (Nat.le_antisymm hsingle (List.length_pos_iff.mpr hq))
  rw [hc, List.append_nil] at hbytes
  obtain ⟨rfl, hlastByte⟩ := List.append_inj' hbytes rfl
  cases hlastByte
  have hthre : t.thre = false := State.thre_eq_false_iff.mpr hq
  refine ⟨hc, ?_, fun ⟨hfaults, hrefused⟩ =>
    ⟨⟨hmore, hstep, hdone⟩, hframe.faults.trans hfaults, hframe.refused.trans hrefused⟩⟩
  rw [hframe.observe, hline, hthre]
  rfl

end

end Sys2Proof.Machine
end
